-- ==== Sys2Proof/Word.lean ====
section
/-! DEFINITION. The words of the wire: one, two, three and four bytes (R193), and the number of a lane.
Numbers inside the part (days, ordinals, counts, slots) are plain Nat. -/

namespace Sys2Proof

/-- One byte of a link. -/
abbrev Byte := BitVec 8

/-- A quantity of two bytes on the wire (R193). -/
abbrev Half := BitVec 16

/-- A quantity of three bytes on the wire: an issue (R193). -/
abbrev Triple := BitVec 24

/-- A quantity of four bytes on the wire (R193). -/
abbrev Quad := BitVec 32

/-- A sequence number s, 0 to 65535, counted mod 65536 (R62). -/
abbrev Seq := BitVec 16

/-- A lane, 0 to 7. -/
abbrev LaneId := Fin 8

end Sys2Proof
end

