-- ==== Sys2Proof/Config.lean ====
section
/-! DEFINITION. What is fixed for the part (capacities and limits, each with its rule), and the free values: wire
codes and bytes that the spec leaves unstated. -/

namespace Sys2Proof.Config

/-- R19: the Title Table has 8192 slots, numbered 0 to 8191. -/
def titleSlots : Nat := 8192
/-- R144: the claim list holds at most 256 entries. -/
def claimEntries : Nat := 256
/-- R185: the report queue has 512 slots. -/
def reportSlots : Nat := 512
/-- R185: 496 of them are item slots. -/
def itemSlots : Nat := 496
/-- R185: 16 of them are non-item slots. -/
def nonItemSlots : Nat := 16
/-- R185: REPORT SPACE LOW holds while the unreserved item slots are below 32. -/
def lowSpace : Nat := 32
/-- R182: a command that finds 8 replies waiting is dropped. -/
def replyQueue : Nat := 8
/-- R181, R187: the largest body of a frame, in bytes. -/
def maxBody : Nat := 1024
/-- R187: a batch carries never more than 16 records. -/
def maxBatch : Nat := 16
/-- R186: this many filled unsent records make the newest due. -/
def dueFill : Nat := 4
/-- R81, R190: a 32-bit counter saturates here. -/
def counterMax : Nat := 4294967295
/-- R130: a count of a consignment saturates here. -/
def countMax : Nat := 65535
/-- R89: an item holds at most eight observations. -/
def maxObservations : Nat := 8
/-- R42: the run window has 64 cells. -/
def windowSize : Nat := 64
/-- R42: a cell's copy count saturates at 7. -/
def cellMax : Nat := 7
/-- R33: a monograph's copies received saturate at 15. -/
def copiesMax : Nat := 15
/-- R41: a first ordinal further than this above the reference is suspect. -/
def suspectLimit : Nat := 256
/-- R107: the highest accession number. -/
def lastAccession : Nat := 99999999
/-- R23, R26, R163: the largest publisher code. -/
def maxPublisher : Nat := 999999
/-- R23, R57: the largest ordinal a host command may name. -/
def maxOrdinal : Nat := 65535999
/-- R70: the length of the stale range. -/
def staleRange : Nat := 64
/-- R101: the consecutive fault count that sets the DIVERTER FAULT level. -/
def faultLimit : Nat := 3
/-- R174: the outstanding list of a test pattern unit holds at most 4 entries. -/
def maxOutstanding : Nat := 4
/-- R178: correct results that bring a lane IN SYNC. -/
def syncGain : Nat := 4
/-- R178: errors that bring a lane OUT OF SYNC. -/
def syncLoss : Nat := 2
/-- R190: the vendor code 0A31H. -/
def vendorCode : Half := 0x0A31#16
/-- R190: the part number. -/
def partNumber : Half := 6208#16
/-- R190: the revision of the part the manual describes. -/
def revision : Byte := 2#8
/-- R192: the report hold time after power-on and CLEAR, in ms. -/
def resetHoldTime : Nat := 50
/-- R158: the grace after power-on and CLEAR, in days. -/
def resetGrace : Nat := 30

/-- Free value. R127 shows a next accession number of 100,000,000 as EXHAUSTED and states no bytes for it
(DESIGN CHOICE: left open; notes/assumptions/13.md). -/
opaque exhaustedBytes : List Byte
/-- Free value. R153 returns a claim entry's kind, and R193 has no code for ISSUES
(DESIGN CHOICE: left open; notes/assumptions/13.md). -/
opaque issuesKindCode : Byte
/-- Free value. R153 returns a claim entry's cause, and R193 has no code for OVERDUE (0), GAP (1) and SLID OUT (2)
(DESIGN CHOICE: left open; notes/assumptions/13.md). -/
opaque claimCauseCode : Nat → Byte
/-- Free value. The tables of R193 keep the bytes of an absent field that stands "with presence" and state nothing for them. The first
argument is the field (0 the day of a notice, 1 the due day, 2 the last arrival day, 3 h), the second the byte's place in it
(DESIGN CHOICE: left open; notes/assumptions/13.md). -/
opaque absentByte : Nat → Nat → Byte

end Sys2Proof.Config
end

