-- ==== Sys2Proof/Syntax.lean ====
section
/-! DEFINITION. The commands of the 6208: one constructor of Instr for each row of spec/opcode_table.json, with the row's
operands as they stand on the wire (R62, R193). -/

namespace Sys2Proof

/-- R193: the part's identifier schemes. -/
inductive Scheme where
  | book | serial | localNum | slip
deriving DecidableEq, Repr

/-- R16: the kind of a title. -/
inductive Kind where
  | monograph | serial
deriving DecidableEq, Repr

/-- R193: the classes of a decided item; return_ is RETURN. -/
inductive ItemClass where
  | preserve | reading | transfer | serials | return_ | query | runout
deriving DecidableEq, Repr

/-- R64: the modes of a lane. -/
inductive LaneMode where
  | normal | dry | echo | test
deriving DecidableEq, Repr

/-- R75: slip detection. -/
inductive SlipDetection where
  | off | header | headerAndTrailer
deriving DecidableEq, Repr

/-- R62: the belt states a HEARTBEAT carries. -/
inductive Belt where
  | running | stopped
deriving DecidableEq, Repr

/-- R62: the diverter states a HEARTBEAT carries. -/
inductive Diverter where
  | ready | notReady
deriving DecidableEq, Repr

/-- R62: the media. -/
inductive Medium where
  | print | disc | card | other
deriving DecidableEq, Repr

/-- R78, R189: the notice conditions, lane conditions first. -/
inductive NoticeCondition where
  | silent | stopped | diverterFault | held | testSync
  | levelChange | checkFail | slipSeen | phantom
  | claimListFull | reportSpaceLow | tableFull | accessionExhausted | started
deriving DecidableEq, Repr

/-- R163: the fields of a FIND. -/
inductive FindField where
  | copiesOutstanding | dueDay | publisherCode | lastArrivalDay
deriving DecidableEq, Repr

/-- R163: the compares of a FIND. -/
inductive FindCompare where
  | lessOrEqual | equal | greaterOrEqual
deriving DecidableEq, Repr

/-- R1: an enumeration as received. -/
structure Enumeration where
  volume : Half
  issue : Triple
  span : Byte
deriving DecidableEq, Repr

/-- R1: an IDENT observation as received. -/
structure Ident where
  scheme : Byte
  text : List Byte
  enumeration : Option Enumeration
deriving DecidableEq, Repr

/-- R62: an observation as a station sends it. -/
inductive Observation where
  | ident (i : Ident)
  | weight (grams : Half)
  | size (height width depth : Half)
  | medium (m : Medium)
deriving DecidableEq, Repr

/-- R9, R193: a key as a host command carries it. -/
structure KeyText where
  scheme : Byte
  text : List Byte
deriving DecidableEq, Repr

/-- R23: the serial part of an ANNOUNCE TITLE. -/
structure SerialGiven where
  p : Half
  vb : Half
  first : Quad
  gapLag : Option Byte
  dayLag : Option Half
deriving DecidableEq, Repr

/-- R23: the fields of ANNOUNCE TITLE. -/
structure AnnounceFields where
  key : KeyText
  kind : Kind
  publisher : Quad
  q : Byte
  plan : List ItemClass
  due : Option Half
  serial : Option SerialGiven
deriving DecidableEq, Repr

/-- R26, R193: the due day change of AMEND TITLE. -/
inductive DueChange where
  | keep
  | set (day : Half)
  | remove
deriving DecidableEq, Repr

/-- R26: the fields of AMEND TITLE. -/
structure AmendFields where
  key : KeyText
  q : Option Byte
  plan : Option (List ItemClass)
  due : DueChange
  publisher : Option Quad
  gapLag : Option Byte
  dayLag : Option Half
deriving DecidableEq, Repr

/-- R193: one pair of a notice enables field. -/
structure EnablePair where
  condition : NoticeCondition
  set : Byte
deriving DecidableEq, Repr

/-- R77: the fields of CONFIGURE LANE. -/
structure ConfigureFields where
  lane : Byte
  depth : Option Byte
  outlets : Option (List Byte)
  slip : Option SlipDetection
  silence : Option Byte
  confirm : Option Half
  enables : Option (List EnablePair)
deriving DecidableEq, Repr

/-- R57: the fields of SET RUN. -/
structure SetRunFields where
  key : KeyText
  base : Quad
deriving DecidableEq, Repr

/-- R31: the fields of LIST TITLES. -/
structure ListFields where
  start : Half
  count : Half
deriving DecidableEq, Repr

/-- R171: the fields of SET LANE MODE. -/
structure LaneModeFields where
  lane : Byte
  mode : LaneMode
deriving DecidableEq, Repr

/-- R128: the fields of SET STEERING. -/
structure SteeringFields where
  first : Byte
  count : Half
  desks : List Byte
deriving DecidableEq, Repr

/-- R163: the fields of FIND. -/
structure FindFields where
  field : FindField
  compare : FindCompare
  value : Quad
  start : Half
  withdrawn : Bool
deriving DecidableEq, Repr

/-- R183: the body of a command frame: malformed (its length does not match its fields, or it holds a value outside the codes),
or the fields it carries. -/
inductive Body (α : Type) where
  | malformed
  | fields (a : α)
deriving DecidableEq, Repr

/-- The 60 rows of spec/opcode_table.json. A host command carries the tag of its frame and its body; an event of a lane carries its
lane; a station record carries its fields. -/
inductive Instr where
  -- device
  | powerOn
  | hostLengthError
  | hostCrcError
  | commandDropped
  | unknownCommand (code tag : Byte)
  | identify (tag : Byte) (body : Body Unit)
  | readCounters (tag : Byte) (body : Body Unit)
  | setNotices (tag : Byte) (body : Body (List EnablePair))
  | setReportHold (tag : Byte) (body : Body Half)
  | holdReports (tag : Byte) (body : Body Unit)
  | releaseReports (tag : Byte) (body : Body Unit)
  | flushReports (tag : Byte) (body : Body Unit)
  | restart (tag : Byte) (body : Body Unit)
  | clear (tag : Byte) (body : Body Unit)
  -- Title Table
  | announceTitle (tag : Byte) (body : Body AnnounceFields)
  | amendTitle (tag : Byte) (body : Body AmendFields)
  | withdrawTitle (tag : Byte) (body : Body KeyText)
  | readTitle (tag : Byte) (body : Body KeyText)
  | listTitles (tag : Byte) (body : Body ListFields)
  | setDay (tag : Byte) (body : Body Half)
  | setRun (tag : Byte) (body : Body SetRunFields)
  -- lanes
  | configureLane (tag : Byte) (body : Body ConfigureFields)
  | enableLane (tag : Byte) (body : Body Byte)
  | disableLane (tag : Byte) (body : Body Byte)
  | readLane (tag : Byte) (body : Body Byte)
  | clearDiverterFault (tag : Byte) (body : Body Byte)
  | setLaneMode (tag : Byte) (body : Body LaneModeFields)
  | injectError (tag : Byte) (body : Body Byte)
  | readTest (tag : Byte) (body : Body Byte)
  -- decision unit
  | setAccessionBase (tag : Byte) (body : Body Quad)
  | readAccession (tag : Byte) (body : Body Unit)
  | setSteering (tag : Byte) (body : Body SteeringFields)
  -- consignment unit
  | closeConsignment (tag : Byte) (body : Body Byte)
  | readConsignment (tag : Byte) (body : Body Byte)
  -- claim list
  | takeClaims (tag : Byte) (body : Body Half)
  | setGrace (tag : Byte) (body : Body Half)
  | readClaimStatus (tag : Byte) (body : Body Unit)
  -- table engine
  | find (tag : Byte) (body : Body FindFields)
  | sweep (tag : Byte) (body : Body Unit)
  | purge (tag : Byte) (body : Body Unit)
  | abort (tag : Byte) (body : Body Unit)
  | engineStatus (tag : Byte) (body : Body Unit)
  -- ends of transmissions, timers and news
  | replySent
  | batchSent
  | holdTimerExpiry
  | noReportSpaceNews (lane : LaneId)
  -- lane links
  | linkCheckFailure (lane : LaneId)
  | recordNotWellFormed (lane : LaneId)
  | heartbeat (lane : LaneId) (belt : Belt) (diverter : Diverter)
  | itemBegin (lane : LaneId) (sq : Seq)
  | observation (lane : LaneId) (sq : Seq) (obs : Observation)
  | itemEnd (lane : LaneId) (sq : Seq) (obs : Option Observation)
  | atGate (lane : LaneId) (sq : Seq)
  | confirm (lane : LaneId) (sq : Seq) (outlet : Byte)
  | silenceTimerExpiry (lane : LaneId)
  | confirmTimerExpiry (lane : LaneId)
  -- table engine, examinations
  | findExamination
  | sweepExamination
  | purgeExamination
  | laneRecordSent (lane : LaneId)
deriving DecidableEq, Repr

/-- R62: a record of a station, whole. -/
inductive StationRecord where
  | heartbeat (belt : Belt) (diverter : Diverter)
  | itemBegin (sq : Seq)
  | observation (sq : Seq) (obs : Observation)
  | itemEnd (sq : Seq) (obs : Option Observation)
  | atGate (sq : Seq)
  | confirm (sq : Seq) (outlet : Byte)
deriving DecidableEq, Repr

end Sys2Proof
end

