-- ==== Sys2Proof/WellFormed.lean ====
section
/-! DEFINITION. The checks an operand must pass to be one that the wire can carry as a valid record or a well-encoded body: the ranges
of R62 for station records, and the counts of R193 for the fields of host commands. A number that is merely refused by its
command (a lane above 7, a count of 0) is well formed: its refusal is the command's meaning. -/

namespace Sys2Proof

/-- R62: an observation as a valid record carries it: a text of 0 to 16 characters, a weight of 1 or more, each dimension 1 to 2000. -/
def Observation.wf : Observation → Bool
  | .ident i => decide (i.text.length ≤ 16)
  | .weight g => g != 0#16
  | .size h w d => [h, w, d].all fun x => x != 0#16 && decide (x.toNat ≤ 2000)
  | .medium _ => true

/-- R61, R62: the fields of a valid station record lie in their ranges. -/
def StationRecord.wf : StationRecord → Bool
  | .heartbeat _ _ => true
  | .itemBegin _ => true
  | .observation _ o => o.wf
  | .itemEnd _ none => true
  | .itemEnd _ (some o) => o.wf
  | .atGate _ => true
  | .confirm _ outlet => decide (outlet.toNat ≤ 7)

/-- R193: a key is a scheme code, a text length of 0 to 16 and that text. -/
def KeyText.wf (k : KeyText) : Bool := decide (k.text.length ≤ 16)

/-- R193: the codes a host command may carry; any other code is an unknown one (R182). -/
def commandCodes : List Nat :=
  List.range' 0x01 9 ++ List.range' 0x10 7 ++ List.range' 0x18 8 ++ List.range' 0x20 3 ++
    List.range' 0x28 2 ++ List.range' 0x2C 3 ++ List.range' 0x30 5

/-- R193: a condition named twice makes the body malformed. -/
def enablePairsWf (ps : List EnablePair) : Bool :=
  decide ((ps.map (·.condition)).Nodup)

/-- The fields of a body are checked; a malformed body is what it is. -/
def Body.all {α : Type} (p : α → Bool) : Body α → Bool
  | .malformed => true
  | .fields a => p a

/-- R23, R193: Q stands before exactly Q class codes. -/
def AnnounceFields.wf (f : AnnounceFields) : Bool :=
  f.key.wf && decide (f.plan.length = f.q.toNat)

/-- R26, R193: the plan is a count of 1 to 4 and that many codes. -/
def AmendFields.wf (f : AmendFields) : Bool :=
  f.key.wf && match f.plan with
    | none => true
    | some p => decide (1 ≤ p.length ∧ p.length ≤ 4)

/-- R77, R193: the outlet map is ten outlets. -/
def ConfigureFields.wf (f : ConfigureFields) : Bool :=
  (match f.outlets with
    | none => true
    | some o => decide (o.length = 10)) &&
  match f.enables with
    | none => true
    | some e => enablePairsWf e

/-- A command as the wire can carry it. -/
def Instr.wf : Instr → Bool
  | .unknownCommand code _ => !(commandCodes.contains code.toNat)
  | .setNotices _ b => b.all enablePairsWf
  | .announceTitle _ b => b.all AnnounceFields.wf
  | .amendTitle _ b => b.all AmendFields.wf
  | .withdrawTitle _ b => b.all KeyText.wf
  | .readTitle _ b => b.all KeyText.wf
  | .setRun _ b => b.all fun f => f.key.wf
  | .configureLane _ b => b.all ConfigureFields.wf
  | .setSteering _ b => b.all fun f => decide (f.desks.length = f.count.toNat)
  | .observation _ sq o => (StationRecord.observation sq o).wf
  | .itemEnd _ sq o => (StationRecord.itemEnd sq o).wf
  | .confirm _ sq o => (StationRecord.confirm sq o).wf
  | .powerOn | .hostLengthError | .hostCrcError | .commandDropped
  | .identify _ _ | .readCounters _ _ | .setReportHold _ _ | .holdReports _ _ | .releaseReports _ _
  | .flushReports _ _ | .restart _ _ | .clear _ _ | .listTitles _ _ | .setDay _ _
  | .enableLane _ _ | .disableLane _ _ | .readLane _ _ | .clearDiverterFault _ _ | .setLaneMode _ _
  | .injectError _ _ | .readTest _ _ | .setAccessionBase _ _ | .readAccession _ _
  | .closeConsignment _ _ | .readConsignment _ _ | .takeClaims _ _ | .setGrace _ _ | .readClaimStatus _ _
  | .find _ _ | .sweep _ _ | .purge _ _ | .abort _ _ | .engineStatus _ _
  | .replySent | .batchSent | .holdTimerExpiry | .noReportSpaceNews _ | .linkCheckFailure _
  | .recordNotWellFormed _ | .heartbeat _ _ _ | .itemBegin _ _ | .atGate _ _
  | .silenceTimerExpiry _ | .confirmTimerExpiry _
  | .findExamination | .sweepExamination | .purgeExamination | .laneRecordSent _ => true

end Sys2Proof
end

