-- ==== Sys2Proof/Decode.lean ====
section
/-! DEFINITION. From bytes to commands: the code tables of R193, the frames of the host link with their CRC (R181), the bodies of the
commands (R193), the records of a lane link (R60, R61), and the two receivers that hunt through a run of bytes. Beside each reader
stands the writer of the same layout. decodeTableWord, over the rows of spec/opcode_table.json that give bits, stands at the end: no
row gives any. -/

namespace Sys2Proof

/-! Code tables (R193). Each quantity has one table; reading looks a code up in it. -/

/-- The member of a list whose code is b. -/
def ofCode {α : Type} (all : List α) (code : α → Byte) (b : Byte) : Option α :=
  all.find? fun a => code a == b

def Scheme.code : Scheme → Byte
  | .book => 0x01#8 | .serial => 0x02#8 | .localNum => 0x03#8 | .slip => 0x04#8
def Scheme.all : List Scheme := [.book, .serial, .localNum, .slip]

def Kind.code : Kind → Byte
  | .monograph => 0x01#8 | .serial => 0x02#8
def Kind.all : List Kind := [.monograph, .serial]

def ItemClass.code : ItemClass → Byte
  | .preserve => 0x00#8 | .reading => 0x01#8 | .transfer => 0x02#8 | .serials => 0x03#8
  | .return_ => 0x04#8 | .query => 0x05#8 | .runout => 0x06#8
def ItemClass.all : List ItemClass := [.preserve, .reading, .transfer, .serials, .return_, .query, .runout]

def LaneMode.code : LaneMode → Byte
  | .normal => 0x00#8 | .dry => 0x01#8 | .echo => 0x02#8 | .test => 0x03#8
def LaneMode.all : List LaneMode := [.normal, .dry, .echo, .test]

def SlipDetection.code : SlipDetection → Byte
  | .off => 0x00#8 | .header => 0x01#8 | .headerAndTrailer => 0x02#8
def SlipDetection.all : List SlipDetection := [.off, .header, .headerAndTrailer]

/-- The codes of belt reported; NONE is 00H there and never in a HEARTBEAT. -/
def Belt.code : Belt → Byte
  | .running => 0x01#8 | .stopped => 0x02#8
def Belt.all : List Belt := [.running, .stopped]

def Diverter.code : Diverter → Byte
  | .ready => 0x01#8 | .notReady => 0x02#8
def Diverter.all : List Diverter := [.ready, .notReady]

def Medium.code : Medium → Byte
  | .print => 0x01#8 | .disc => 0x02#8 | .card => 0x03#8 | .other => 0x04#8
def Medium.all : List Medium := [.print, .disc, .card, .other]

def NoticeCondition.code : NoticeCondition → Byte
  | .silent => 0x01#8 | .stopped => 0x02#8 | .diverterFault => 0x03#8 | .held => 0x04#8 | .testSync => 0x05#8
  | .levelChange => 0x06#8 | .checkFail => 0x07#8 | .slipSeen => 0x08#8 | .phantom => 0x09#8
  | .claimListFull => 0x10#8 | .reportSpaceLow => 0x11#8 | .tableFull => 0x12#8
  | .accessionExhausted => 0x13#8 | .started => 0x14#8
def NoticeCondition.all : List NoticeCondition :=
  [.silent, .stopped, .diverterFault, .held, .testSync, .levelChange, .checkFail, .slipSeen, .phantom,
    .claimListFull, .reportSpaceLow, .tableFull, .accessionExhausted, .started]

def FindField.code : FindField → Byte
  | .copiesOutstanding => 0x01#8 | .dueDay => 0x02#8 | .publisherCode => 0x03#8 | .lastArrivalDay => 0x04#8
def FindField.all : List FindField := [.copiesOutstanding, .dueDay, .publisherCode, .lastArrivalDay]

def FindCompare.code : FindCompare → Byte
  | .lessOrEqual => 0x01#8 | .equal => 0x02#8 | .greaterOrEqual => 0x03#8
def FindCompare.all : List FindCompare := [.lessOrEqual, .equal, .greaterOrEqual]

/-! Quantities, most significant byte first (R193). -/

def be16 (x : Half) : List Byte := [x.extractLsb' 8 8, x.extractLsb' 0 8]
def be24 (x : Triple) : List Byte := [x.extractLsb' 16 8, x.extractLsb' 8 8, x.extractLsb' 0 8]
def be32 (x : Quad) : List Byte :=
  [x.extractLsb' 24 8, x.extractLsb' 16 8, x.extractLsb' 8 8, x.extractLsb' 0 8]

/-- A number written in two bytes. -/
def num16 (n : Nat) : List Byte := be16 (BitVec.ofNat 16 n)
/-- A number written in four bytes. -/
def num32 (n : Nat) : List Byte := be32 (BitVec.ofNat 32 n)
/-- A number written in one byte. -/
def num8 (n : Nat) : List Byte := [BitVec.ofNat 8 n]
/-- R193: a flag is 00H when clear and 01H when set. -/
def flagByte (b : Bool) : List Byte := [if b then 0x01#8 else 0x00#8]
/-- R193: an optional field is preceded by a presence byte, 00H for absent and 01H for present; an absent field has no further bytes
(DEDUCED; notes/assumptions/12.md). -/
def optBytes {α : Type} (f : α → List Byte) : Option α → List Byte
  | none => [0x00#8]
  | some a => 0x01#8 :: f a

/-- R193: in the tables of the title record and of the notice a field "with presence" has a fixed width: its bytes stand behind the presence
byte when it is absent too. The first argument is what stands there then. -/
def keptBytes {α : Type} (absent : List Byte) (f : α → List Byte) : Option α → List Byte
  | none => 0x00#8 :: absent
  | some a => 0x01#8 :: f a

/-- What a reader of a layout takes from the front of a run of bytes: the value and the bytes after it. -/
abbrev Reader (α : Type) := List Byte → Option (α × List Byte)

def read8 : Reader Byte
  | b :: r => some (b, r)
  | [] => none
def read16 : Reader Half
  | a :: b :: r => some (a ++ b, r)
  | _ => none
def read24 : Reader Triple
  | a :: b :: c :: r => some (a ++ b ++ c, r)
  | _ => none
def read32 : Reader Quad
  | a :: b :: c :: d :: r => some (a ++ b ++ c ++ d, r)
  | _ => none
def readBytes (n : Nat) : Reader (List Byte) := fun r =>
  if r.length < n then none else some (r.take n, r.drop n)
/-- A value of a code table; a byte outside the table reads as nothing. -/
def readCode {α : Type} (all : List α) (code : α → Byte) : Reader α := fun r => do
  let (b, r) ← read8 r
  let a ← ofCode all code b
  pure (a, r)
/-- n values, one after another. -/
def readMany {α : Type} (p : Reader α) : Nat → Reader (List α)
  | 0, r => some ([], r)
  | n + 1, r => do
    let (a, r) ← p r
    let (as, r) ← readMany p n r
    pure (a :: as, r)
/-- R193: any presence byte other than 00H and 01H makes the body malformed. -/
def readOpt {α : Type} (p : Reader α) : Reader (Option α) := fun r => do
  let (b, r) ← read8 r
  if b = 0x00#8 then pure (none, r)
  else if b = 0x01#8 then do
    let (a, r) ← p r
    pure (some a, r)
  else none
/-- R193: a field "with presence" of a table: the presence byte, then the field's bytes, which are disregarded when it is absent
(DEDUCED; notes/assumptions/12.md). -/
def readKept {α : Type} (p : Reader α) : Reader (Option α) := fun r => do
  let (b, r) ← read8 r
  let (a, r) ← p r
  if b = 0x00#8 then pure (none, r)
  else if b = 0x01#8 then pure (some a, r)
  else none
/-- A flag; a byte other than 00H and 01H is outside the codes (R183). -/
def readFlag : Reader Bool := fun r => do
  let (b, r) ← read8 r
  if b = 0x00#8 then pure (false, r) else if b = 0x01#8 then pure (true, r) else none

/-! The bodies of the commands (R193). -/

def KeyText.bytes (k : KeyText) : List Byte := k.scheme :: num8 k.text.length ++ k.text
def readKey : Reader KeyText := fun r => do
  let (s, r) ← read8 r
  let (n, r) ← read8 r
  if 16 < n.toNat then none
  else do
    let (t, r) ← readBytes n.toNat r
    pure (⟨s, t⟩, r)

def EnablePair.bytes (p : EnablePair) : List Byte := [p.condition.code, p.set]
def readEnablePair : Reader EnablePair := fun r => do
  let (c, r) ← readCode NoticeCondition.all NoticeCondition.code r
  let (s, r) ← read8 r
  pure (⟨c, s⟩, r)
/-- R193: notice enables are a count byte and that many pairs. -/
def enablesBytes (ps : List EnablePair) : List Byte := num8 ps.length ++ ps.flatMap EnablePair.bytes
/-- R193: a condition named twice makes the body malformed. -/
def readEnables : Reader (List EnablePair) := fun r => do
  let (n, r) ← read8 r
  let (ps, r) ← readMany readEnablePair n.toNat r
  if enablePairsWf ps then pure (ps, r) else none

/-- R193: 4, 4 and 5 bytes. The writer puts 00H where an absent lag stands (notes/assumptions/12.md). -/
def SerialGiven.bytes (g : SerialGiven) : List Byte :=
  be16 g.p ++ be16 g.vb ++ be32 g.first ++ keptBytes [0x00#8] (fun b => [b]) g.gapLag ++
    keptBytes [0x00#8, 0x00#8] be16 g.dayLag
def readSerialGiven : Reader SerialGiven := fun r => do
  let (p, r) ← read16 r
  let (vb, r) ← read16 r
  let (first, r) ← read32 r
  let (gap, r) ← readKept read8 r
  let (lag, r) ← readKept read16 r
  pure (⟨p, vb, first, gap, lag⟩, r)

def AnnounceFields.bytes (f : AnnounceFields) : List Byte :=
  f.key.bytes ++ [f.kind.code] ++ be32 f.publisher ++ [f.q] ++ f.plan.map ItemClass.code ++
    keptBytes [0x00#8, 0x00#8] be16 f.due ++ (match f.serial with
      | none => []
      | some g => g.bytes)
/-- R193: the body of ANNOUNCE TITLE is the fields marked A, each in the width of the table; the serial fields stand after the due day or are left out. -/
def readAnnounce : Reader AnnounceFields := fun r => do
  let (k, r) ← readKey r
  let (kind, r) ← readCode Kind.all Kind.code r
  let (pub, r) ← read32 r
  let (q, r) ← read8 r
  let (plan, r) ← readMany (readCode ItemClass.all ItemClass.code) q.toNat r
  let (due, r) ← readKept read16 r
  if r = [] then pure (⟨k, kind, pub, q, plan, due, none⟩, r)
  else do
    let (g, r) ← readSerialGiven r
    pure (⟨k, kind, pub, q, plan, due, some g⟩, r)

def planBytes (p : List ItemClass) : List Byte := num8 p.length ++ p.map ItemClass.code
/-- R193: the plan of AMEND TITLE is a count byte of 1 to 4 and that many class codes. -/
def readPlan : Reader (List ItemClass) := fun r => do
  let (n, r) ← read8 r
  if 1 ≤ n.toNat ∧ n.toNat ≤ 4 then readMany (readCode ItemClass.all ItemClass.code) n.toNat r else none
def DueChange.bytes : DueChange → List Byte
  | .keep => [0x00#8]
  | .set d => 0x01#8 :: be16 d
  | .remove => [0x02#8]
def readDueChange : Reader DueChange := fun r => do
  let (b, r) ← read8 r
  if b = 0x00#8 then pure (.keep, r)
  else if b = 0x01#8 then do
    let (d, r) ← read16 r
    pure (.set d, r)
  else if b = 0x02#8 then pure (.remove, r)
  else none
def AmendFields.bytes (f : AmendFields) : List Byte :=
  f.key.bytes ++ optBytes (fun b => [b]) f.q ++ optBytes planBytes f.plan ++ f.due.bytes ++
    optBytes be32 f.publisher ++ optBytes (fun b => [b]) f.gapLag ++ optBytes be16 f.dayLag
def readAmend : Reader AmendFields := fun r => do
  let (k, r) ← readKey r
  let (q, r) ← readOpt read8 r
  let (plan, r) ← readOpt readPlan r
  let (due, r) ← readDueChange r
  let (pub, r) ← readOpt read32 r
  let (gap, r) ← readOpt read8 r
  let (lag, r) ← readOpt read16 r
  pure (⟨k, q, plan, due, pub, gap, lag⟩, r)

def ConfigureFields.bytes (f : ConfigureFields) : List Byte :=
  [f.lane] ++ optBytes (fun b => [b]) f.depth ++ optBytes id f.outlets ++ optBytes (fun d => [SlipDetection.code d]) f.slip ++
    optBytes (fun b => [b]) f.silence ++ optBytes be16 f.confirm ++ optBytes enablesBytes f.enables
def readConfigure : Reader ConfigureFields := fun r => do
  let (l, r) ← read8 r
  let (depth, r) ← readOpt read8 r
  let (map, r) ← readOpt (readBytes 10) r
  let (slip, r) ← readOpt (readCode SlipDetection.all SlipDetection.code) r
  let (silence, r) ← readOpt read8 r
  let (confirm, r) ← readOpt read16 r
  let (en, r) ← readOpt readEnables r
  pure (⟨l, depth, map, slip, silence, confirm, en⟩, r)

def SetRunFields.bytes (f : SetRunFields) : List Byte := f.key.bytes ++ be32 f.base
def readSetRun : Reader SetRunFields := fun r => do
  let (k, r) ← readKey r
  let (b, r) ← read32 r
  pure (⟨k, b⟩, r)

def ListFields.bytes (f : ListFields) : List Byte := be16 f.start ++ be16 f.count
def readList : Reader ListFields := fun r => do
  let (s, r) ← read16 r
  let (c, r) ← read16 r
  pure (⟨s, c⟩, r)

def LaneModeFields.bytes (f : LaneModeFields) : List Byte := [f.lane, f.mode.code]
def readLaneMode : Reader LaneModeFields := fun r => do
  let (l, r) ← read8 r
  let (m, r) ← readCode LaneMode.all LaneMode.code r
  pure (⟨l, m⟩, r)

def SteeringFields.bytes (f : SteeringFields) : List Byte := [f.first] ++ be16 f.count ++ f.desks
def readSteering : Reader SteeringFields := fun r => do
  let (f, r) ← read8 r
  let (n, r) ← read16 r
  let (ds, r) ← readBytes n.toNat r
  pure (⟨f, n, ds⟩, r)

def FindFields.bytes (f : FindFields) : List Byte :=
  [f.field.code, f.compare.code] ++ be32 f.value ++ be16 f.start ++ flagByte f.withdrawn
def readFind : Reader FindFields := fun r => do
  let (fl, r) ← readCode FindField.all FindField.code r
  let (c, r) ← readCode FindCompare.all FindCompare.code r
  let (v, r) ← read32 r
  let (s, r) ← read16 r
  let (w, r) ← readFlag r
  pure (⟨fl, c, v, s, w⟩, r)

/-- A command that carries no field. -/
def readNothing : Reader Unit := fun r => some ((), r)

/-- R183: a body whose length does not match the fields it carries, or that holds a value outside the codes, is malformed. -/
def readBody {α : Type} (p : Reader α) (body : List Byte) : Body α :=
  match p body with
  | some (a, []) => .fields a
  | _ => .malformed

/-- R182, R193: the command that a complete frame's code, tag and body spell. -/
def decodeCommand (code tag : Byte) (body : List Byte) : Instr :=
  match code.toNat with
  | 0x01 => .identify tag (readBody readNothing body)
  | 0x02 => .readCounters tag (readBody readNothing body)
  | 0x03 => .setNotices tag (readBody readEnables body)
  | 0x04 => .setReportHold tag (readBody read16 body)
  | 0x05 => .holdReports tag (readBody readNothing body)
  | 0x06 => .releaseReports tag (readBody readNothing body)
  | 0x07 => .flushReports tag (readBody readNothing body)
  | 0x08 => .restart tag (readBody readNothing body)
  | 0x09 => .clear tag (readBody readNothing body)
  | 0x10 => .announceTitle tag (readBody readAnnounce body)
  | 0x11 => .amendTitle tag (readBody readAmend body)
  | 0x12 => .withdrawTitle tag (readBody readKey body)
  | 0x13 => .readTitle tag (readBody readKey body)
  | 0x14 => .listTitles tag (readBody readList body)
  | 0x15 => .setDay tag (readBody read16 body)
  | 0x16 => .setRun tag (readBody readSetRun body)
  | 0x18 => .configureLane tag (readBody readConfigure body)
  | 0x19 => .enableLane tag (readBody read8 body)
  | 0x1A => .disableLane tag (readBody read8 body)
  | 0x1B => .readLane tag (readBody read8 body)
  | 0x1C => .clearDiverterFault tag (readBody read8 body)
  | 0x1D => .setLaneMode tag (readBody readLaneMode body)
  | 0x1E => .injectError tag (readBody read8 body)
  | 0x1F => .readTest tag (readBody read8 body)
  | 0x20 => .setAccessionBase tag (readBody read32 body)
  | 0x21 => .readAccession tag (readBody readNothing body)
  | 0x22 => .setSteering tag (readBody readSteering body)
  | 0x28 => .closeConsignment tag (readBody read8 body)
  | 0x29 => .readConsignment tag (readBody read8 body)
  | 0x2C => .takeClaims tag (readBody read16 body)
  | 0x2D => .setGrace tag (readBody read16 body)
  | 0x2E => .readClaimStatus tag (readBody readNothing body)
  | 0x30 => .find tag (readBody readFind body)
  | 0x31 => .sweep tag (readBody readNothing body)
  | 0x32 => .purge tag (readBody readNothing body)
  | 0x33 => .abort tag (readBody readNothing body)
  | 0x34 => .engineStatus tag (readBody readNothing body)
  | _ => .unknownCommand code tag

/-- The frame that carries a command whose body has fields: its code, its tag and the bytes of its body (R193). None for a command
that is no host command, or whose body is malformed (many bodies are). -/
def encodeCommand : Instr → Option (Byte × Byte × List Byte)
  | .unknownCommand c t => some (c, t, [])
  | .identify t (.fields _) => some (0x01#8, t, [])
  | .readCounters t (.fields _) => some (0x02#8, t, [])
  | .setNotices t (.fields ps) => some (0x03#8, t, enablesBytes ps)
  | .setReportHold t (.fields ms) => some (0x04#8, t, be16 ms)
  | .holdReports t (.fields _) => some (0x05#8, t, [])
  | .releaseReports t (.fields _) => some (0x06#8, t, [])
  | .flushReports t (.fields _) => some (0x07#8, t, [])
  | .restart t (.fields _) => some (0x08#8, t, [])
  | .clear t (.fields _) => some (0x09#8, t, [])
  | .announceTitle t (.fields f) => some (0x10#8, t, f.bytes)
  | .amendTitle t (.fields f) => some (0x11#8, t, f.bytes)
  | .withdrawTitle t (.fields k) => some (0x12#8, t, k.bytes)
  | .readTitle t (.fields k) => some (0x13#8, t, k.bytes)
  | .listTitles t (.fields f) => some (0x14#8, t, f.bytes)
  | .setDay t (.fields d) => some (0x15#8, t, be16 d)
  | .setRun t (.fields f) => some (0x16#8, t, f.bytes)
  | .configureLane t (.fields f) => some (0x18#8, t, f.bytes)
  | .enableLane t (.fields l) => some (0x19#8, t, [l])
  | .disableLane t (.fields l) => some (0x1A#8, t, [l])
  | .readLane t (.fields l) => some (0x1B#8, t, [l])
  | .clearDiverterFault t (.fields l) => some (0x1C#8, t, [l])
  | .setLaneMode t (.fields f) => some (0x1D#8, t, f.bytes)
  | .injectError t (.fields l) => some (0x1E#8, t, [l])
  | .readTest t (.fields l) => some (0x1F#8, t, [l])
  | .setAccessionBase t (.fields b) => some (0x20#8, t, be32 b)
  | .readAccession t (.fields _) => some (0x21#8, t, [])
  | .setSteering t (.fields f) => some (0x22#8, t, f.bytes)
  | .closeConsignment t (.fields l) => some (0x28#8, t, [l])
  | .readConsignment t (.fields l) => some (0x29#8, t, [l])
  | .takeClaims t (.fields n) => some (0x2C#8, t, be16 n)
  | .setGrace t (.fields d) => some (0x2D#8, t, be16 d)
  | .readClaimStatus t (.fields _) => some (0x2E#8, t, [])
  | .find t (.fields f) => some (0x30#8, t, f.bytes)
  | .sweep t (.fields _) => some (0x31#8, t, [])
  | .purge t (.fields _) => some (0x32#8, t, [])
  | .abort t (.fields _) => some (0x33#8, t, [])
  | .engineStatus t (.fields _) => some (0x34#8, t, [])
  | _ => none

/-! Frames of the host link (R181). -/

/-- One bit of the CRC: polynomial 1021H, most significant bit first. -/
def crcBit (c : BitVec 16) : BitVec 16 :=
  if c.msb then (c <<< 1) ^^^ 0x1021#16 else c <<< 1
def crcByte (c : BitVec 16) (b : Byte) : BitVec 16 :=
  (crcBit ∘ crcBit ∘ crcBit ∘ crcBit ∘ crcBit ∘ crcBit ∘ crcBit ∘ crcBit) (c ^^^ (b.setWidth 16 <<< 8))
/-- R181: initial value FFFFH, no reflection, no final inversion. -/
def crc (bs : List Byte) : BitVec 16 := bs.foldl crcByte 0xFFFF#16

/-- R181, R193: marker, length, code, tag, body and CRC over offsets 2 to 5 + L. -/
def hostFrame (code tag : Byte) (body : List Byte) : List Byte :=
  let covered := num16 body.length ++ [code, tag] ++ body
  [0xA5#8, 0x5A#8] ++ covered ++ be16 (crc covered)

/-- What the receive framer makes of a run of bytes. -/
inductive HostEvent where
  | lengthError
  | crcError
  | complete (code tag : Byte) (body : List Byte)
deriving DecidableEq, Repr

/-- The command of the table that an event of the framer is (R181, R182). -/
def HostEvent.instr : HostEvent → Instr
  | .lengthError => .hostLengthError
  | .crcError => .hostCrcError
  | .complete c t b => decodeCommand c t b

/-- R181: the framer hunts for A5H 5AH; a length above 1024 or a CRC that does not agree discards the frame, and the hunt resumes at the
byte after the A5H of its marker. Answers what was found and the bytes still to be judged (none of them when hunting). The first
argument bounds the bytes left to look at. -/
def scanHost : Nat → List Byte → List HostEvent × List Byte
  | 0, buf => ([], buf)
  | _ + 1, [] => ([], [])
  | n + 1, b :: t =>
    if b ≠ 0xA5#8 then scanHost n t
    else match t with
      | [] => ([], [b])
      | m :: rest =>
        if m ≠ 0x5A#8 then scanHost n t
        else match read16 rest with
          | none => ([], b :: t)
          | some (len, after) =>
            if Config.maxBody < len.toNat then
              let (es, keep) := scanHost n t
              (.lengthError :: es, keep)
            else if after.length < len.toNat + 4 then ([], b :: t)
            else
              let covered := rest.take (len.toNat + 4)
              let sum := (rest.drop (len.toNat + 4)).take 2
              if sum = be16 (crc covered) then
                let (es, keep) := scanHost n (rest.drop (len.toNat + 6))
                let code := (covered.drop 2).headD 0x00#8
                let tag := (covered.drop 3).headD 0x00#8
                (.complete code tag (covered.drop 4) :: es, keep)
              else
                let (es, keep) := scanHost n t
                (.crcError :: es, keep)

/-! Records of a lane link (R60, R61, R193). -/

/-- R60: the sum of every byte, from the start byte to the check byte, is 0 mod 256. -/
def byteSum (bs : List Byte) : Byte := bs.foldl (· + ·) 0x00#8

/-- R60: start byte 7EH, the number of bytes after the length byte, the type, the fields and the check byte. -/
def laneRecord (type : Byte) (fields : List Byte) : List Byte :=
  let body := [0x7E#8, BitVec.ofNat 8 (fields.length + 2), type] ++ fields
  body ++ [-(byteSum body)]

def Enumeration.bytes (e : Enumeration) : List Byte := be16 e.volume ++ be24 e.issue ++ [e.span]
def readEnumeration : Reader Enumeration := fun r => do
  let (v, r) ← read16 r
  let (i, r) ← read24 r
  let (s, r) ← read8 r
  pure (⟨v, i, s⟩, r)
def Ident.bytes (i : Ident) : List Byte :=
  i.scheme :: num8 i.text.length ++ i.text ++ optBytes Enumeration.bytes i.enumeration
def readIdent : Reader Ident := fun r => do
  let (k, r) ← readKey r
  let (e, r) ← readOpt readEnumeration r
  pure (⟨k.scheme, k.text, e⟩, r)

/-- R193: an observation is its kind and its value. -/
def Observation.bytes : Observation → List Byte
  | .ident i => 0x01#8 :: i.bytes
  | .weight g => 0x02#8 :: be16 g
  | .size h w d => 0x03#8 :: (be16 h ++ be16 w ++ be16 d)
  | .medium m => [0x04#8, m.code]
def readObservation : Reader Observation := fun r => do
  let (k, r) ← read8 r
  match k.toNat with
  | 1 => do
    let (i, r) ← readIdent r
    pure (.ident i, r)
  | 2 => do
    let (g, r) ← read16 r
    pure (.weight g, r)
  | 3 => do
    let (h, r) ← read16 r
    let (w, r) ← read16 r
    let (d, r) ← read16 r
    pure (.size h w d, r)
  | 4 => do
    let (m, r) ← readCode Medium.all Medium.code r
    pure (.medium m, r)
  | _ => none

/-- R193: the type codes of the station's records. -/
def StationRecord.typeCode : StationRecord → Byte
  | .heartbeat _ _ => 0x01#8
  | .itemBegin _ => 0x02#8
  | .observation _ _ => 0x03#8
  | .itemEnd _ _ => 0x04#8
  | .atGate _ => 0x05#8
  | .confirm _ _ => 0x06#8
def StationRecord.fieldBytes : StationRecord → List Byte
  | .heartbeat b d => [b.code, d.code]
  | .itemBegin s => be16 s
  | .observation s o => be16 s ++ o.bytes
  | .itemEnd s o => be16 s ++ optBytes Observation.bytes o
  | .atGate s => be16 s
  | .confirm s o => be16 s ++ [o]
/-- R60: the station record whole, from its start byte to its check byte. -/
def StationRecord.bytes (r : StationRecord) : List Byte := laneRecord r.typeCode r.fieldBytes

/-- The record that a type byte and its fields spell, its ranges not yet judged. -/
def readStationFields (type : Byte) : Reader StationRecord := fun r =>
  match type.toNat with
  | 1 => do
    let (b, r) ← readCode Belt.all Belt.code r
    let (d, r) ← readCode Diverter.all Diverter.code r
    pure (.heartbeat b d, r)
  | 2 => do
    let (s, r) ← read16 r
    pure (.itemBegin s, r)
  | 3 => do
    let (s, r) ← read16 r
    let (o, r) ← readObservation r
    pure (.observation s o, r)
  | 4 => do
    let (s, r) ← read16 r
    let (o, r) ← readOpt readObservation r
    pure (.itemEnd s o, r)
  | 5 => do
    let (s, r) ← read16 r
    pure (.atGate s, r)
  | 6 => do
    let (s, r) ← read16 r
    let (o, r) ← read8 r
    pure (.confirm s o, r)
  | _ => none

/-- R61: the well formed record that the bytes between the length byte and the check byte spell: a known type, a length that matches
the fields, and every field in its range. -/
def decodeStation : List Byte → Option StationRecord
  | [] => none
  | type :: fields =>
    match readStationFields type fields with
    | some (r, []) => if r.wf then some r else none
    | _ => none

/-- What a lane's receiver makes of a run of bytes. -/
inductive LaneEvent where
  | checkFailure
  | notWellFormed
  | record (r : StationRecord)
deriving DecidableEq, Repr

/-- The command of the table that an event of a lane's receiver is. -/
def LaneEvent.instr (l : LaneId) : LaneEvent → Instr
  | .checkFailure => .linkCheckFailure l
  | .notWellFormed => .recordNotWellFormed l
  | .record (.heartbeat b d) => .heartbeat l b d
  | .record (.itemBegin s) => .itemBegin l s
  | .record (.observation s o) => .observation l s o
  | .record (.itemEnd s o) => .itemEnd l s o
  | .record (.atGate s) => .atGate l s
  | .record (.confirm s o) => .confirm l s o

/-- R60, R61: the receiver hunts for 7EH and takes the length byte and that many bytes. After a failed check the hunt resumes at the byte
after the start byte; after a record that is not well formed it goes on after the check byte. Answers what was found and the bytes
still to be judged. The first argument bounds the bytes left to look at. -/
def scanLane : Nat → List Byte → List LaneEvent × List Byte
  | 0, buf => ([], buf)
  | _ + 1, [] => ([], [])
  | n + 1, b :: t =>
    if b ≠ 0x7E#8 then scanLane n t
    else match t with
      | [] => ([], [b])
      | len :: rest =>
        if rest.length < len.toNat then ([], b :: t)
        else
          let taken := rest.take len.toNat
          if byteSum (b :: len :: taken) = 0x00#8 then
            let (es, keep) := scanLane n (rest.drop len.toNat)
            match decodeStation taken.dropLast with
            | some r => (.record r :: es, keep)
            | none => (.notWellFormed :: es, keep)
          else
            let (es, keep) := scanLane n t
            (.checkFailure :: es, keep)

/-- The instruction of a word numbered as spec/opcode_table.json numbers bits: no row of the table gives any bits, so no word spells
a command. -/
def decodeTableWord (_nbits _w : Nat) : Option Instr := none

end Sys2Proof
end

