-- ==== Sys2Proof/Machine/State.lean ====
section
/-! DEFINITION. The state of the 6208, block by block as the introduction lists the blocks, and the state after reset. All of it is plain
data. Numbers the spec bounds are Nat; Safety.lean says which bounds hold in every state a run reaches. -/

namespace Sys2Proof.Machine

/-! Identifiers and titles (chapters 1 to 3). -/

/-- R9: the schemes a key may have. -/
inductive KeyScheme where
  | book | serial | localNum
deriving DecidableEq, Repr

/-- R9: a key: its scheme and its value, position by position; the check position of a SERIAL holds 0 to 10. -/
structure Key where
  scheme : KeyScheme
  value : List Nat
deriving DecidableEq, Repr

/-- R6: what a deposit slip says; trailer is the kind digit 2. -/
structure SlipContent where
  trailer : Bool
  publisher : Nat
  declared : Nat
deriving DecidableEq, Repr

/-- R16: the status of a title record. -/
inductive TitleStatus where
  | expected | complete | withdrawn
deriving DecidableEq, Repr

/-- R16, R149: the claim state of a monograph. -/
inductive ClaimState where
  | none | owed | listed | taken
deriving DecidableEq, Repr

/-- The chute classes, the only classes of a copy plan (R16). -/
inductive Chute where
  | preserve | reading | transfer | serials
deriving DecidableEq, Repr

/-- R16, R42: one cell of a run window. -/
structure Cell where
  count : Nat
  claimed : Bool
deriving DecidableEq, Repr

/-- R16, R37: the serial part. The cells stand in ordinal order from w. -/
structure SerialPart where
  p : Nat
  vb : Nat
  first : Nat
  w : Nat
  h : Option Nat
  cells : List Cell
  gapLag : Nat
  dayLag : Nat
deriving DecidableEq, Repr

/-- R16: what a MONOGRAPH record holds beside the common fields: due day, copies received c, claim state. -/
structure MonographPart where
  due : Option Nat
  copies : Nat
  claim : ClaimState
deriving DecidableEq, Repr

/-- R16, R17: the part of a record that its kind decides. -/
inductive TitleBody where
  | monograph (m : MonographPart)
  | serial (p : SerialPart)
deriving DecidableEq, Repr

/-- R16: a title record. -/
structure TitleRecord where
  key : Key
  status : TitleStatus
  publisher : Nat
  q : Nat
  plan : List Chute
  announceDay : Nat
  lastArrival : Option Nat
  body : TitleBody
deriving DecidableEq, Repr

/-- R19, R21: the slots that hold a record, rising, and the day. -/
structure TitleTable where
  slots : List (Nat × TitleRecord)
  day : Option Nat
deriving DecidableEq, Repr

/-! The claim list (chapter 8). -/

/-- R143: the cause of a claim. -/
inductive ClaimCause where
  | overdue | gap | slidOut
deriving DecidableEq, Repr

/-- R143: the kind of a claim with what it asks for. -/
inductive ClaimBody where
  | monograph (missing : Nat)
  | issues (first last : Nat)
deriving DecidableEq, Repr

/-- R143: a claim entry. -/
structure ClaimEntry where
  key : Key
  body : ClaimBody
  q : Nat
  cause : ClaimCause
  day : Nat
deriving DecidableEq, Repr

/-- R144: the entries, oldest first, claims-lost and the grace. -/
structure ClaimList where
  entries : List ClaimEntry
  lost : Nat
  grace : Nat
deriving DecidableEq, Repr

/-! Items and decisions (chapters 5 and 6). -/

/-- R8: the judgement of an identifier. -/
inductive Judgement where
  | unchecked | valid | invalid
deriving DecidableEq, Repr

/-- R83: an observation held in an item record; an IDENT carries its judgement. -/
inductive HeldObservation where
  | ident (i : Ident) (j : Judgement)
  | weight (grams : Half)
  | size (height width depth : Half)
  | medium (m : Medium)
deriving DecidableEq, Repr

/-- R109, R193: the fourteen reasons of a decision and the five of items that leave undecided or flushed. -/
inductive Reason where
  | matched | surplus | withdrawn | unannounced | noIdentifier | checkFail | conflict
  | enumerationError | enumerationSuspect | lateIssue | noAccession | slip | slipHeader | slipTrailer
  | late | incomplete | disabled | laneStopped | restarted
deriving DecidableEq, Repr

/-- R109: a decision. The reason is absent on a TEST lane alone (R176; DEDUCED, notes/assumptions/15.md). -/
structure Decision where
  cls : ItemClass
  desk : Option (Fin 4)
  outlet : Fin 8
  reason : Option Reason
  key : Option Key
  copy : Option Nat
  range : Option (Nat × Nat)
  accession : Option Nat
  dry : Bool
  satisfied : Bool
  claimed : Bool
  notOpened : Bool
deriving DecidableEq, Repr

/-- R83: the state of an item. -/
inductive ItemState where
  | reading | decided | confirming
deriving DecidableEq, Repr

/-- R83: an item record. -/
structure Item where
  lane : LaneId
  sq : Seq
  state : ItemState
  observations : List HeldObservation
  oversize : Bool
  consignment : Option Nat
  decision : Option Decision
  reserved : Bool
deriving DecidableEq, Repr

/-- R85, R99: the item in the confirm hold, the outlet its DIVERT carried, and the confirm timeout its timer was started at, in ms
(time that has passed is not held; notes/assumptions/2.md). -/
structure HeldItem where
  item : Item
  outlet : Fin 8
  timer : Nat
deriving DecidableEq, Repr

/-- R107: the decision unit: the accession counter, the exhaustion notice flag and the steering table. -/
structure DecisionUnit where
  baseSet : Bool
  next : Option Nat
  last : Option Nat
  exhaustNotice : Bool
  steering : Vector (Fin 4) 64
deriving DecidableEq, Repr

/-! Consignments (chapter 7). -/

/-- R130: an open consignment context; its lane is its place in ConsignmentUnit.contexts. -/
structure Consignment where
  number : Nat
  publisher : Nat
  declared : Nat
  counted : Nat
  matched : Nat
  surplus : Nat
  unannounced : Nat
  checkFails : Nat
  openingDay : Nat
  dry : Bool
deriving DecidableEq, Repr

/-- R136: the causes of a close. -/
inductive CloseCause where
  | unterminated | trailer | trailerMismatch | abandoned | command
deriving DecidableEq, Repr

/-- R130: the contexts (none is closed), the stray trailer counts and the number the next opening takes. -/
structure ConsignmentUnit where
  contexts : Vector (Option Consignment) 8
  stray : Vector Nat 8
  nextNumber : Nat
deriving DecidableEq, Repr

/-! The table engine (chapter 9). -/

/-- R159: the operation with its parameters. -/
inductive Operation where
  | find (f : FindFields)
  | sweep
  | purge
deriving DecidableEq, Repr

/-- R159: the context of the operation in progress. start is the slot its walk began at (R162). -/
structure EngineContext where
  op : Operation
  start : Nat
  current : Nat
  examined : Nat
  raised : Nat
  owed : Nat
  freed : Nat
deriving DecidableEq, Repr

/-! Lanes (chapters 4, 5 and 10). -/

/-- R64: the state of a lane. -/
inductive LaneState where
  | disabled | silent | active | stopped
deriving DecidableEq, Repr

/-- R64: the violation cause. -/
inductive ViolationCause where
  | none | beginWhileReading | sequenceBreak | unknownItem
deriving DecidableEq, Repr

/-- The type of a station record (R62). -/
inductive RecordType where
  | heartbeat | itemBegin | observation | itemEnd | atGate | confirm
deriving DecidableEq, Repr

/-- R64: the violation record. -/
structure ViolationRecord where
  type : RecordType
  sq : Seq
  expected : Option Seq
deriving DecidableEq, Repr

/-- R75: the outlet map. -/
structure OutletMap where
  preserve : Fin 8
  reading : Fin 8
  transfer : Fin 8
  serials : Fin 8
  return_ : Fin 8
  query0 : Fin 8
  query1 : Fin 8
  query2 : Fin 8
  query3 : Fin 8
  runout : Fin 8
deriving DecidableEq, Repr

/-- R78: the two enables of a level condition. -/
structure LevelEnable where
  rising : Bool
  falling : Bool
deriving DecidableEq, Repr

/-- R78: the notice enables of a lane. -/
structure LaneEnables where
  silent : LevelEnable
  stopped : LevelEnable
  diverterFault : LevelEnable
  held : LevelEnable
  testSync : LevelEnable
  levelChange : Bool
  checkFail : Bool
  slipSeen : Bool
  phantom : Bool
deriving DecidableEq, Repr

/-- R75: the configuration of a lane; silence timeout in s, confirm timeout in ms. -/
structure LaneConfig where
  depth : Nat
  outlets : OutletMap
  slip : SlipDetection
  silence : Nat
  confirm : Nat
  enables : LaneEnables
deriving DecidableEq, Repr

/-- R81: the fourteen counters of a lane, in the order of the table. -/
structure LaneCounters where
  admitted : Nat
  refused : Nat
  decided : Nat
  diverted : Nat
  runOut : Nat
  flushed : Nat
  late : Nat
  missing : Nat
  phantom : Nat
  checkFails : Nat
  violations : Nat
  linkErrors : Nat
  stale : Nat
  confirmFaults : Nat
deriving DecidableEq, Repr

/-- R174: an outstanding value with its injected mark. -/
structure Outstanding where
  value : BitVec 15
  injected : Bool
deriving DecidableEq, Repr

/-- R174: the test pattern unit of a lane. -/
structure TestUnit where
  generator : BitVec 15
  outstanding : List Outstanding
  inject : Bool
  inSync : Bool
  correctRun : Nat
  errorRun : Nat
  sent : Nat
  correct : Nat
  errors : Nat
  injectedDetected : Nat
  unsolicited : Nat
  echoed : Nat
deriving DecidableEq, Repr

/-- R63: a record the lane interface sends its station. -/
inductive LaneOut where
  | admission (sq : Seq)
  | refuse (sq : Seq)
  | hold
  | release
  | divert (sq : Seq) (outlet : Fin 8)
  | testItem (value : BitVec 15) (check : Nat)
  | echo (r : StationRecord)
deriving DecidableEq, Repr

/-- A lane interface with its lane queue, confirm hold and test pattern unit. -/
structure Lane where
  state : LaneState
  sync : Bool
  silenceTimer : Option Nat
  expected : Option Seq
  cause : ViolationCause
  violation : Option ViolationRecord
  belt : Option Belt
  diverter : Option Diverter
  mode : LaneMode
  configured : Bool
  config : LaneConfig
  hold : Bool
  noSpace : Bool
  news : List Bool
  queue : List Item
  held : Option HeldItem
  faults : Nat
  faultLevel : Bool
  counters : LaneCounters
  test : TestUnit
  rx : List Byte
  sending : Option LaneOut
  outbox : List LaneOut
deriving DecidableEq, Repr

/-! Records of the report queue (chapter 11). -/

/-- R193: the outcome of an item. -/
inductive ItemOutcome where
  | diverted | runOut | flushed | missing
deriving DecidableEq, Repr

/-- R193: the confirm result. -/
inductive ConfirmResult where
  | confirmed | misrouted | noConfirm | unconfirmed
deriving DecidableEq, Repr

/-- R15: an entry of the identifier list; checked and checkFail are its flags. -/
structure IdentEntry where
  scheme : Byte
  text : List Byte
  checked : Bool
  checkFail : Bool
deriving DecidableEq, Repr

/-- R103: a disposition record. -/
structure Disposition where
  lane : LaneId
  sq : Seq
  outcome : ItemOutcome
  outlet : Fin 8
  cls : ItemClass
  reason : Reason
  confirm : ConfirmResult
  dry : Bool
  oversize : Bool
  satisfied : Bool
  claimed : Bool
  diverterFault : Bool
  notOpened : Bool
  desk : Option (Fin 4)
  key : Option Key
  copy : Option Nat
  range : Option (Nat × Nat)
  accession : Option Nat
  weight : Option Half
  size : Option (Half × Half × Half)
  medium : Option Medium
  consignment : Option Nat
  identifiers : List IdentEntry
deriving DecidableEq, Repr

/-- R136: a consignment summary. -/
structure Summary where
  lane : LaneId
  consignment : Consignment
  cause : CloseCause
  closingDay : Nat
  overDeclared : Bool
deriving DecidableEq, Repr

/-- R92: the lane level. -/
inductive LaneLevel where
  | empty | low | high | full
deriving DecidableEq, Repr

/-- R193: the source of a notice. -/
inductive Source where
  | lane (l : LaneId)
  | device
deriving DecidableEq, Repr

/-- R189: the edge of a notice. -/
inductive Edge where
  | rising | falling | event
deriving DecidableEq, Repr

/-- R140: what the consignment unit did with a slip. -/
inductive SlipAction where
  | opened (number : Nat)
  | notOpened
  | closed (number : Nat) (cause : CloseCause)
  | noConsignment
  | plain
deriving DecidableEq, Repr

/-- R189: the causes of STARTED. -/
inductive StartCause where
  | powerOn | clear | restart
deriving DecidableEq, Repr

/-- R189, R193: the detail of a notice. -/
inductive Detail where
  | none
  | violation (c : ViolationCause)
  | level (v : LaneLevel)
  | checkFail (sq : Seq) (idents : Nat)
  | item (sq : Seq)
  | slip (sq : Seq) (content : SlipContent) (action : SlipAction)
  | testValue (v : BitVec 15)
  | count (n : Nat)
  | laneItem (l : LaneId) (sq : Seq)
  | started (c : StartCause)
deriving DecidableEq, Repr

/-- R189: a notice record; the day is absent while the day is unset. -/
structure Notice where
  source : Source
  condition : NoticeCondition
  edge : Edge
  day : Option Nat
  detail : Detail
deriving DecidableEq, Repr

/-- R162: the terminations of a long operation. -/
inductive Termination where
  | normal | notSatisfied | aborted
deriving DecidableEq, Repr

/-- R162: the hit of a FIND. -/
structure Hit where
  slot : Nat
  key : Key
  kind : Kind
  status : TitleStatus
deriving DecidableEq, Repr

/-- R162: the result fields of a completion record. -/
inductive OperationResult where
  | find (hit : Option Hit)
  | sweep (raised owed : Nat)
  | purge (freed : Nat)
deriving DecidableEq, Repr

/-- R162: a completion record. -/
structure Completion where
  termination : Termination
  start : Nat
  next : Nat
  examined : Nat
  result : OperationResult
deriving DecidableEq, Repr

/-- The records of the report queue. -/
inductive ReportRecord where
  | disposition (d : Disposition)
  | summary (s : Summary)
  | notice (n : Notice)
  | completion (c : Completion)
deriving DecidableEq, Repr

/-- R189: the device notice enables. -/
structure DeviceEnables where
  claimListFull : LevelEnable
  reportSpaceLow : LevelEnable
  tableFull : LevelEnable
  accessionExhausted : Bool
deriving DecidableEq, Repr

/-- R185 to R189: the report unit. sendPoint is the place of the record it marks, counted from the front; holdTimer is the time a
running timer was started at, in ms (notes/assumptions/2.md). -/
structure ReportUnit where
  filled : List ReportRecord
  reservedItem : Nat
  reservedNonItem : Nat
  sendPoint : Option Nat
  holdTimer : Option Nat
  holdTime : Nat
  reportsHeld : Bool
  enables : DeviceEnables
  batchNumber : Byte
  noSpace : Bool
  spaceLow : Bool
deriving DecidableEq, Repr

/-! The host link (chapter 11). -/

/-- R190: the link counters, in the order of the list. -/
structure LinkCounters where
  framesTaken : Nat
  crcErrors : Nat
  lengthErrors : Nat
  unknownCodes : Nat
  commandsDropped : Nat
  repliesSent : Nat
  batchesSent : Nat
  recordsSent : Nat
  noticesDropped : Nat
deriving DecidableEq, Repr

/-- R183: the refusal reasons. -/
inductive RefusalReason where
  | invalid | unknown | busy | badState | notFound | full | notReady | low
deriving DecidableEq, Repr

/-- R160: the kind of a long operation, as a BUSY detail or an ACCEPTED reply names it. -/
inductive OperationKind where
  | find | sweep | purge
deriving DecidableEq, Repr

/-- R183: the detail of a refusal; empty but for NOT READY and BUSY. -/
inductive RefusalDetail where
  | none
  | notReady (configuration day accessionBase : Bool)
  | operationInProgress (op : OperationKind)
  | noReportSpace
deriving DecidableEq, Repr

/-- R23: whether ANNOUNCE TITLE inserted or replaced. -/
inductive AnnounceOutcome where
  | inserted | replaced
deriving DecidableEq, Repr

/-- R26: a record's status, and for a MONOGRAPH its copies received and claim state. -/
structure Standing where
  status : TitleStatus
  monograph : Option (Nat × ClaimState)
deriving DecidableEq, Repr

/-- R31: an entry of LIST TITLES. -/
structure ListEntry where
  slot : Nat
  key : Key
  kind : Kind
  status : TitleStatus
  tombstone : Bool
deriving DecidableEq, Repr

/-- R79: the standing of a lane, as READ LANE gives it. -/
structure LaneView where
  state : LaneState
  mode : LaneMode
  configured : Bool
  sync : Bool
  hold : Bool
  level : LaneLevel
  occupancy : Nat
  confirmHold : Bool
  faultLevel : Bool
  faults : Nat
  expected : Option Seq
  cause : ViolationCause
  violation : Option ViolationRecord
  belt : Option Belt
  diverter : Option Diverter
  config : LaneConfig
  counters : LaneCounters
deriving DecidableEq, Repr

/-- R155: what READ CLAIM STATUS gives. -/
structure ClaimStatus where
  count : Nat
  lost : Nat
  full : Bool
  grace : Nat
  monographs : Nat
  issues : Nat
  oldestDay : Option Nat
deriving DecidableEq, Repr

/-- The data of a DONE or ACCEPTED reply, as each command's rule states it. -/
inductive ReplyData where
  | empty
  | identity
  | counters (link : LinkCounters) (lanes : List LaneCounters)
  | deviceEnables (e : DeviceEnables)
  | holdTime (ms : Nat)
  | due (n : Nat)
  | announced (slot : Nat) (outcome : AnnounceOutcome)
  | amended (before after : Standing)
  | withdrawn (slot : Nat) (before : TitleStatus)
  | title (slot : Nat) (r : TitleRecord)
  | titles (entries : List ListEntry) (next : Nat) (endOfTable : Bool)
  | day (before : Option Nat) (now : Nat)
  | run (slot w : Nat) (h : Option Nat) (now : Nat)
  | laneConfig (c : LaneConfig)
  | laneMode (m : LaneMode)
  | disabled (state : LaneState) (items : Nat)
  | lane (v : LaneView)
  | diverter (level : Bool) (faults : Nat)
  | modes (before after : LaneMode)
  | test (m : LaneMode) (t : TestUnit)
  | accessionBase (before : Option Nat) (after : Nat)
  | accession (baseSet : Bool) (next last : Option Nat) (exhaustNotice : Bool)
  | steering (desks : Vector (Fin 4) 64)
  | consignmentClosed (c : Consignment) (overDeclared : Bool)
  | consignment (l : LaneId) (c : Option (Consignment × Bool)) (stray next : Nat)
  | claims (entries : List ClaimEntry) (remaining : Nat)
  | grace (before now : Nat)
  | claimStatus (c : ClaimStatus)
  | operation (op : OperationKind) (slot : Nat)
  | engine (e : Option EngineContext)
deriving DecidableEq, Repr

/-- R183: the three forms of a reply. -/
inductive ReplyBody where
  | done (d : ReplyData)
  | accepted (d : ReplyData)
  | refused (r : RefusalReason) (d : RefusalDetail)
deriving DecidableEq, Repr

/-- R182: a reply with its code and its tag. -/
structure Reply where
  code : Byte
  tag : Byte
  body : ReplyBody
deriving DecidableEq, Repr

/-- R184: the outbound line. A batch in transmission holds its tag and its records; queued of them are still in the report queue (all of
them, or none after a CLEAR that came while it was sent). -/
inductive Line where
  | idle
  | reply (r : Reply)
  | batch (tag : Byte) (records : List ReportRecord) (queued : Nat)
deriving DecidableEq, Repr

/-- The host link. -/
structure HostLink where
  rx : List Byte
  replies : List Reply
  line : Line
  counters : LinkCounters
deriving DecidableEq, Repr

/-! The whole. -/

/-- The part, and the commands that wait for it, first in, first out. -/
structure State where
  pending : List Instr
  host : HostLink
  report : ReportUnit
  table : TitleTable
  claims : ClaimList
  decision : DecisionUnit
  consign : ConsignmentUnit
  engine : Option EngineContext
  lanes : Vector Lane 8
deriving DecidableEq, Repr

/-- Why a step would stop with a fault: the spec stops the part nowhere, so there is no reason. No one raises it; safe. -/
inductive Fault where
deriving DecidableEq, Repr

/-- Why a step would have no meaning. -/
inductive Refusal where
  /-- The interface's name for a command that has no meaning yet: raised by an arm of exec alone, and by none of them now; safe. -/
  | notModelled (mnemonic : String)
deriving DecidableEq, Repr

/-! Values after power-on (R35, R82, R106, R129, R142, R158, R170, R174, R190, R192). -/

/-- R78: a level condition with both its enables off. -/
def LevelEnable.off : LevelEnable := ⟨false, false⟩
/-- R75: the default notice enables: all off. -/
def LaneEnables.off : LaneEnables :=
  ⟨.off, .off, .off, .off, .off, false, false, false, false⟩
/-- R75: the default outlet map. -/
def OutletMap.default : OutletMap := ⟨0, 1, 2, 3, 4, 5, 5, 5, 5, 7⟩
/-- R75: the default configuration. -/
def LaneConfig.default : LaneConfig := ⟨16, .default, .off, 2, 500, .off⟩
/-- R82: every counter 0. -/
def LaneCounters.zero : LaneCounters := ⟨0, 0, 0, 0, 0, 0, 0, 0, 0, 0, 0, 0, 0, 0⟩
/-- R174: the values of power-on and CLEAR. -/
def TestUnit.reset : TestUnit := ⟨1#15, [], false, false, 0, 0, 0, 0, 0, 0, 0, 0⟩
/-- R82, R106: a lane at power-on. -/
def Lane.reset : Lane where
  state := .disabled
  sync := false
  silenceTimer := none
  expected := none
  cause := .none
  violation := none
  belt := none
  diverter := none
  mode := .normal
  configured := false
  config := .default
  hold := true
  noSpace := false
  news := []
  queue := []
  held := none
  faults := 0
  faultLevel := false
  counters := .zero
  test := .reset
  rx := []
  sending := none
  outbox := []
/-- R35: every slot free, the day unset. -/
def TitleTable.reset : TitleTable := ⟨[], none⟩
/-- R158. -/
def ClaimList.reset : ClaimList := ⟨[], 0, Config.resetGrace⟩
/-- R129: entry i of the steering table holds i mod 4. -/
def DecisionUnit.reset : DecisionUnit :=
  ⟨false, none, none, false, Vector.ofFn fun i => Fin.ofNat 4 i.val⟩
/-- R142. -/
def ConsignmentUnit.reset : ConsignmentUnit := ⟨Vector.replicate 8 none, Vector.replicate 8 0, 1⟩
/-- R192: the device enables off. -/
def DeviceEnables.off : DeviceEnables := ⟨.off, .off, .off, false⟩
/-- R192: the report unit as CLEAR lists it, its queue empty. -/
def ReportUnit.reset : ReportUnit where
  filled := []
  reservedItem := 0
  reservedNonItem := 0
  sendPoint := none
  holdTimer := none
  holdTime := Config.resetHoldTime
  reportsHeld := false
  enables := .off
  batchNumber := 0x00#8
  noSpace := false
  spaceLow := false
/-- R190: the link counters are 0 at power-on. -/
def LinkCounters.zero : LinkCounters := ⟨0, 0, 0, 0, 0, 0, 0, 0, 0⟩
/-- R181, R192: the framer hunting, the reply queue empty, the line free. -/
def HostLink.reset : HostLink := ⟨[], [], .idle, .zero⟩

/-- Every block at its power-on values, before the STARTED notice is asked. -/
def State.blank : State where
  pending := []
  host := .reset
  report := .reset
  table := .reset
  claims := .reset
  decision := .reset
  consign := .reset
  engine := none
  lanes := Vector.replicate 8 Lane.reset

/-- R189, R192: the STARTED notice of power-on; the day is unset. -/
def Notice.poweredOn : Notice := ⟨.device, .started, .event, none, .started .powerOn⟩

/-- The part right after power-on (R192): every block at its power-on values, the STARTED notice filled, the send point on it, and its
batch, tag 0, in transmission (DEDUCED; notes/assumptions/4.md). -/
def State.reset : State :=
  { State.blank with
    report := { ReportUnit.reset with filled := [.notice .poweredOn], sendPoint := some 0 }
    host := { HostLink.reset with line := .batch 0x00#8 [.notice .poweredOn] 1 } }

end Sys2Proof.Machine
end

