-- ==== Sys2Proof/Machine/Operands.lean ====
section
/-! DEFINITION. What the operands of a command mean before any block acts on them: identifiers, their check characters and keys
(chapter 1), the accession check character (R14), the test generator and its identifiers (R175), and the settings of a lane (R75). -/

namespace Sys2Proof.Machine

/-! Saturating counts and clamped settings. -/

/-- R81, R190: a 32-bit counter increased by n; it stays at its largest value. -/
def satAdd (c n : Nat) : Nat := min (c + n) Config.counterMax
/-- A 32-bit counter increased by 1. -/
def bump (c : Nat) : Nat := satAdd c 1
/-- R130: a count of a consignment increased by 1. -/
def bumpCount (c : Nat) : Nat := min (c + 1) Config.countMax
/-- A clamped setting is brought to the nearer end of its range. -/
def clamp (lo hi n : Nat) : Nat := max lo (min n hi)

/-! Digits and check characters. -/

/-- R2: a digit is a byte 30H to 39H. -/
def digitOf (b : Byte) : Option Nat :=
  if 0x30 ≤ b.toNat ∧ b.toNat ≤ 0x39 then some (b.toNat - 0x30) else none
/-- R2, R4: at the check position of a SERIAL the byte 58H is X, the value 10. -/
def digitOrX (b : Byte) : Option Nat := if b = 0x58#8 then some 10 else digitOf b
/-- The digits of a text, when every character is one. -/
def digitsOf : List Byte → Option (List Nat)
  | [] => some []
  | b :: t => match digitOf b, digitsOf t with
    | some d, some ds => some (d :: ds)
    | _, _ => none

/-- R3, R5, R6: the weights 1 and 3 alternately, starting with 1 at the leftmost position. -/
def altSum : List Nat → Nat
  | [] => 0
  | [a] => a
  | a :: b :: t => a + 3 * b + altSum t
/-- R3, R5, R6: the check value (10 − (S mod 10)) mod 10. -/
def altCheck (ds : List Nat) : Nat := (10 - altSum ds % 10) % 10
/-- R4, R14: the weights that end with 2 at the last position and rise by one to the left. -/
def fallingSum : List Nat → Nat
  | [] => 0
  | d :: t => d * (t.length + 2) + fallingSum t
/-- R4, R14: the check value (11 − (S mod 11)) mod 11, 0 to 10. -/
def elevenCheck (ds : List Nat) : Nat := (11 - fallingSum ds % 11) % 11
/-- The n lowest decimal digits of a number, leftmost first, with leading zeros. -/
def decimal : Nat → Nat → List Nat
  | 0, _ => []
  | n + 1, v => decimal n (v / 10) ++ [v % 10]
/-- The number that digits spell. -/
def number (ds : List Nat) : Nat := ds.foldl (fun v d => 10 * v + d) 0
/-- R14: the check value of an accession number. -/
def accessionCheck (n : Nat) : Nat := elevenCheck (decimal 8 n)

/-! Identifiers and keys. -/

/-- R6, R9: what a valid identifier yields. -/
inductive IdentValue where
  | key (k : Key)
  | slip (c : SlipContent)
deriving DecidableEq, Repr

/-- R3, R5: n digits, the last of them the check digit. -/
def altValue (n : Nat) (text : List Byte) : Option (List Nat) :=
  match digitsOf text with
  | some ds => if ds.length = n ∧ ds.getLast? = some (altCheck ds.dropLast) then some ds else none
  | none => none
/-- R4: seven digits and a check character that is a digit or X. -/
def serialValue (text : List Byte) : Option (List Nat) :=
  match digitsOf (text.take 7), (text.drop 7).map digitOrX with
  | some ds, [some c] => if ds.length = 7 ∧ c = elevenCheck ds then some (ds ++ [c]) else none
  | _, _ => none
/-- R6: kind digit, publisher code, declared count and check digit. A trailer's count is the number its positions hold, and stands so in
SLIP SEEN (R140), though R6 has it disregarded (DESIGN CHOICE; notes/assumptions/27.md). -/
def slipValue (text : List Byte) : Option SlipContent :=
  match altValue 11 text with
  | some ds =>
    if ds.head? = some 1 ∨ ds.head? = some 2 then
      some ⟨ds.head? = some 2, number ((ds.drop 1).take 6), number ((ds.drop 7).take 3)⟩
    else none
  | none => none
/-- R2 to R7: what an identifier yields when it is valid; an invalid one, or one of an unknown scheme, yields nothing. -/
def identValue (scheme : Byte) (text : List Byte) : Option IdentValue :=
  match ofCode Scheme.all Scheme.code scheme with
  | some .book => (altValue 13 text).map fun v => .key ⟨.book, v⟩
  | some .serial => (serialValue text).map fun v => .key ⟨.serial, v⟩
  | some .localNum => (altValue 12 text).map fun v => .key ⟨.localNum, v⟩
  | some .slip => (slipValue text).map .slip
  | none => none
/-- R8: the judgement depends on the scheme code and the text alone. -/
def judge (i : Ident) : Judgement := if (identValue i.scheme i.text).isSome then .valid else .invalid
/-- R9: the key a host command gives; none when it is invalid, a SLIP or of an unknown scheme. -/
def keyOf (k : KeyText) : Option Key :=
  match identValue k.scheme k.text with
  | some (.key v) => some v
  | _ => none

def KeyScheme.code : KeyScheme → Byte
  | .book => Scheme.book.code | .serial => Scheme.serial.code | .localNum => Scheme.localNum.code
/-- R9: wherever a key is given to the host it stands in character form; the value 10 is X. -/
def digitChar (d : Nat) : Byte := if d = 10 then 0x58#8 else BitVec.ofNat 8 (0x30 + d)
def Key.text (k : Key) : List Byte := k.value.map digitChar

/-- R17: the kind a key's scheme allows. -/
def KeyScheme.allows : KeyScheme → Kind → Bool
  | .book, .monograph => true
  | .book, .serial => false
  | .serial, .monograph => false
  | .serial, .serial => true
  | .localNum, _ => true

/-! Plans, lanes and outlets. -/

/-- R16: the plan's entries are chute classes. -/
def chuteOf : ItemClass → Option Chute
  | .preserve => some .preserve
  | .reading => some .reading
  | .transfer => some .transfer
  | .serials => some .serials
  | .return_ | .query | .runout => none
def Chute.cls : Chute → ItemClass
  | .preserve => .preserve | .reading => .reading | .transfer => .transfer | .serials => .serials
/-- The plan as chute classes, when every entry is one. -/
def planOf : List ItemClass → Option (List Chute)
  | [] => some []
  | c :: t => match chuteOf c, planOf t with
    | some d, some ds => some (d :: ds)
    | _, _ => none

/-- The lane a host command names; none when it lies outside 0 to 7. -/
def laneOf (b : Byte) : Option LaneId := if h : b.toNat < 8 then some ⟨b.toNat, h⟩ else none
/-- An outlet; none when above 7. -/
def outletOf (b : Byte) : Option (Fin 8) := if h : b.toNat < 8 then some ⟨b.toNat, h⟩ else none
/-- A desk; none when above 3. -/
def deskOf (b : Byte) : Option (Fin 4) := if h : b.toNat < 4 then some ⟨b.toNat, h⟩ else none
/-- R193: ten outlets in the outlet map order; an outlet above 7, or another count, gives no map. -/
def outletMapOf (bs : List Byte) : Option OutletMap :=
  match bs.map outletOf with
  | [some a, some b, some c, some d, some e, some f, some g, some h, some i, some j] =>
    some ⟨a, b, c, d, e, f, g, h, i, j⟩
  | _ => none
/-- R128: the desks of a list, when none is above 3. -/
def desksOf : List Byte → Option (List (Fin 4))
  | [] => some []
  | b :: t => match deskOf b, desksOf t with
    | some d, some ds => some (d :: ds)
    | _, _ => none

/-- R123: the outlet of a class; a QUERY takes that of its desk. -/
def OutletMap.outlet (m : OutletMap) (c : ItemClass) (desk : Option (Fin 4)) : Fin 8 :=
  match c with
  | .preserve => m.preserve
  | .reading => m.reading
  | .transfer => m.transfer
  | .serials => m.serials
  | .return_ => m.return_
  | .runout => m.runout
  | .query => match desk.getD 0 with
    | 0 => m.query0
    | 1 => m.query1
    | 2 => m.query2
    | 3 => m.query3

/-- R75: a depth of 24 or less gives 16, any above 24 gives 32. -/
def depthOf (b : Byte) : Nat := if b.toNat ≤ 24 then 16 else 32

/-- R78: a lane condition. -/
def laneCondition : NoticeCondition → Bool
  | .silent | .stopped | .diverterFault | .held | .testSync | .levelChange | .checkFail | .slipSeen | .phantom => true
  | .claimListFull | .reportSpaceLow | .tableFull | .accessionExhausted | .started => false
/-- R189: a device condition whose enables SET NOTICES carries. -/
def deviceCondition : NoticeCondition → Bool
  | .claimListFull | .reportSpaceLow | .tableFull | .accessionExhausted => true
  | .silent | .stopped | .diverterFault | .held | .testSync | .levelChange | .checkFail | .slipSeen | .phantom
  | .started => false

/-- R193: the enable set the pairs give a condition; one they do not name has its enables off. -/
def enableSet (ps : List EnablePair) (c : NoticeCondition) : Byte :=
  match ps.find? fun p => p.condition == c with
  | some p => p.set
  | none => 0x00#8
/-- R193: bit 0 is the rising edge, or the event (notes/assumptions/14.md for the bits above bit 1). -/
def eventEnable (b : Byte) : Bool := b.getLsbD 0
/-- R193: bit 0 is the rising edge and bit 1 the falling edge. -/
def levelEnable (b : Byte) : LevelEnable := ⟨b.getLsbD 0, b.getLsbD 1⟩
def laneEnablesOf (ps : List EnablePair) : LaneEnables where
  silent := levelEnable (enableSet ps .silent)
  stopped := levelEnable (enableSet ps .stopped)
  diverterFault := levelEnable (enableSet ps .diverterFault)
  held := levelEnable (enableSet ps .held)
  testSync := levelEnable (enableSet ps .testSync)
  levelChange := eventEnable (enableSet ps .levelChange)
  checkFail := eventEnable (enableSet ps .checkFail)
  slipSeen := eventEnable (enableSet ps .slipSeen)
  phantom := eventEnable (enableSet ps .phantom)
def deviceEnablesOf (ps : List EnablePair) : DeviceEnables where
  claimListFull := levelEnable (enableSet ps .claimListFull)
  reportSpaceLow := levelEnable (enableSet ps .reportSpaceLow)
  tableFull := levelEnable (enableSet ps .tableFull)
  accessionExhausted := eventEnable (enableSet ps .accessionExhausted)

/-! The test generator (R175). -/

/-- R175: the feedback bit is bit 14 exclusive-or bit 13; the new state is twice the state mod 32768 plus the feedback. -/
def generatorStep (g : BitVec 15) : BitVec 15 :=
  (g <<< 1) ||| (if g.getLsbD 14 != g.getLsbD 13 then 1#15 else 0#15)
/-- R175: the eleven digits of a test identifier before its check digit. -/
def testDigits (v : BitVec 15) : List Nat := [9, 9, 0, 0, 0, 0] ++ decimal 5 v.toNat
/-- R175: the check digit computed under R5. -/
def testCheck (v : BitVec 15) : Nat := altCheck (testDigits v)
/-- R175: the test identifier of a value. -/
def testIdentifier (v : BitVec 15) : List Byte := (testDigits v ++ [testCheck v]).map digitChar

end Sys2Proof.Machine
end

