-- ==== Sys2Proof/Machine/Flags.lean ====
section
/-! DEFINITION. What is read off the state and not stored: the lane level, the hold conditions, the stale range, the occupancy of the
report queue, the full conditions, and whether a notice is enabled. -/

namespace Sys2Proof.Machine

/-! Titles. -/

/-- R16: the kind of a record. -/
def TitleRecord.kind (r : TitleRecord) : Kind :=
  match r.body with
  | .monograph _ => .monograph
  | .serial _ => .serial
/-- R20: the table is full when no slot is free. -/
def TitleTable.full (t : TitleTable) : Bool := t.slots.length == Config.titleSlots
/-- The day in force where a rule reads it as a number: 0 while it is unset (R21 for the announce day; elsewhere no run reads it unset,
notes/assumptions/16.md). -/
def TitleTable.today (t : TitleTable) : Nat := t.day.getD 0
/-- R156: CLAIM LIST FULL holds while the list holds 256 entries. -/
def ClaimList.full (c : ClaimList) : Bool := c.entries.length == Config.claimEntries
/-- R107: a number is available when the next number is present and is 99,999,999 or below. -/
def DecisionUnit.available (d : DecisionUnit) : Bool :=
  match d.next with
  | some n => decide (n ≤ Config.lastAccession)
  | none => false

/-! Lanes. -/

/-- R85: the occupancy of the queue. -/
def Lane.occupancy (l : Lane) : Nat := l.queue.length
/-- R92: the lane level of an occupancy against a depth. -/
def levelOf (depth n : Nat) : LaneLevel :=
  if n = 0 then .empty else if n ≤ depth / 2 then .low else if n < depth then .high else .full
/-- R92: the lane level. -/
def Lane.level (l : Lane) : LaneLevel := levelOf l.config.depth l.occupancy
/-- R85, R103: the modes whose items hold a report slot. -/
def accounts : LaneMode → Bool
  | .normal | .dry => true
  | .echo | .test => false
/-- R87: full, no report space (disregarded by ECHO and TEST lanes), or not active. -/
def Lane.holdConditions (l : Lane) : Bool :=
  l.occupancy == l.config.depth || (l.noSpace && accounts l.mode) || l.state != .active
/-- R70: the stale range is the 64 numbers below the expected number, counted mod 65536; empty while it is absent. -/
def Lane.stale (l : Lane) (sq : Seq) : Bool :=
  match l.expected with
  | some e => decide (1 ≤ (e - sq).toNat ∧ (e - sq).toNat ≤ Config.staleRange)
  | none => false
/-- R85: the READING item. -/
def Lane.readingItem (l : Lane) : Option Item := l.queue.find? fun i => i.state == .reading
/-- R72: whether a record names the READING item. -/
def Lane.namesReading (l : Lane) (sq : Seq) : Bool :=
  match l.readingItem with
  | some i => i.sq == sq
  | none => false
/-- R72: whether the queue holds an item of this number, in any state. -/
def Lane.holds (l : Lane) (sq : Seq) : Bool := l.queue.any fun i => i.sq == sq

/-- The type of a station record. -/
def recordType : StationRecord → RecordType
  | .heartbeat _ _ => .heartbeat
  | .itemBegin _ => .itemBegin
  | .observation _ _ => .observation
  | .itemEnd _ _ => .itemEnd
  | .atGate _ => .atGate
  | .confirm _ _ => .confirm

/-! The report queue. -/

/-- R185: dispositions and summaries stand in item slots. -/
def ReportRecord.isItem : ReportRecord → Bool
  | .disposition _ | .summary _ => true
  | .notice _ | .completion _ => false
def ReportUnit.filledItem (r : ReportUnit) : Nat := r.filled.countP ReportRecord.isItem
def ReportUnit.filledNonItem (r : ReportUnit) : Nat := r.filled.countP fun x => !x.isItem
/-- R185: reserved and filled item slots. -/
def ReportUnit.usedItem (r : ReportUnit) : Nat := r.reservedItem + r.filledItem
/-- R185: reserved and filled non-item slots. -/
def ReportUnit.usedNonItem (r : ReportUnit) : Nat := r.reservedNonItem + r.filledNonItem
/-- R185: the unreserved item slots. -/
def ReportUnit.unreserved (r : ReportUnit) : Nat := Config.itemSlots - r.usedItem
/-- R186: the records due: every one up to and including the one marked. -/
def ReportUnit.due (r : ReportUnit) : Nat :=
  match r.sendPoint with
  | some i => i + 1
  | none => 0

/-! Notices. -/

def LevelEnable.on (e : LevelEnable) : Edge → Bool
  | .rising => e.rising
  | .falling => e.falling
  | .event => false
/-- R78, R189: whether the enable of an edge is on in a lane's configuration. -/
def LaneEnables.on (e : LaneEnables) (c : NoticeCondition) (edge : Edge) : Bool :=
  match c with
  | .silent => e.silent.on edge
  | .stopped => e.stopped.on edge
  | .diverterFault => e.diverterFault.on edge
  | .held => e.held.on edge
  | .testSync => e.testSync.on edge
  | .levelChange => e.levelChange
  | .checkFail => e.checkFail
  | .slipSeen => e.slipSeen
  | .phantom => e.phantom
  | .claimListFull | .reportSpaceLow | .tableFull | .accessionExhausted | .started => false
/-- R189: whether a device condition is enabled; STARTED has no enable and is always asked. -/
def DeviceEnables.on (e : DeviceEnables) (c : NoticeCondition) (edge : Edge) : Bool :=
  match c with
  | .claimListFull => e.claimListFull.on edge
  | .reportSpaceLow => e.reportSpaceLow.on edge
  | .tableFull => e.tableFull.on edge
  | .accessionExhausted => e.accessionExhausted
  | .started => true
  | .silent | .stopped | .diverterFault | .held | .testSync | .levelChange | .checkFail | .slipSeen | .phantom => false

/-- R136: OVER DECLARED, or whether counted is now above a declared count above 0. -/
def Consignment.overDeclared (c : Consignment) : Bool := decide (0 < c.declared ∧ c.declared < c.counted)

def Operation.kind : Operation → OperationKind
  | .find _ => .find
  | .sweep => .sweep
  | .purge => .purge

end Sys2Proof.Machine
end

