-- ==== Sys2Proof/Machine/Formats.lean ====
section
/-! DEFINITION. The bytes the part sends (R193): report records, replies with the data each command's rule names, frames of the host
line, and the records of a lane link. The batch of R187 is built from the lengths given here. -/

namespace Sys2Proof.Machine

/-! Codes of the code table. -/

def TitleStatus.code : TitleStatus → Byte
  | .expected => 0x00#8 | .complete => 0x01#8 | .withdrawn => 0x02#8
def ClaimState.code : ClaimState → Byte
  | .none => 0x00#8 | .owed => 0x01#8 | .listed => 0x02#8 | .taken => 0x03#8
def Reason.code : Reason → Byte
  | .matched => 0x01#8 | .surplus => 0x02#8 | .withdrawn => 0x03#8 | .unannounced => 0x04#8
  | .noIdentifier => 0x05#8 | .checkFail => 0x06#8 | .conflict => 0x07#8 | .enumerationError => 0x08#8
  | .enumerationSuspect => 0x09#8 | .lateIssue => 0x0A#8 | .noAccession => 0x0B#8 | .slip => 0x0C#8
  | .slipHeader => 0x0D#8 | .slipTrailer => 0x0E#8 | .late => 0x0F#8 | .incomplete => 0x10#8
  | .disabled => 0x11#8 | .laneStopped => 0x12#8 | .restarted => 0x13#8
def ItemOutcome.code : ItemOutcome → Byte
  | .diverted => 0x00#8 | .runOut => 0x01#8 | .flushed => 0x02#8 | .missing => 0x03#8
def ConfirmResult.code : ConfirmResult → Byte
  | .confirmed => 0x00#8 | .misrouted => 0x01#8 | .noConfirm => 0x02#8 | .unconfirmed => 0x03#8
def RefusalReason.code : RefusalReason → Byte
  | .invalid => 0x01#8 | .unknown => 0x02#8 | .busy => 0x03#8 | .badState => 0x04#8
  | .notFound => 0x05#8 | .full => 0x06#8 | .notReady => 0x07#8 | .low => 0x08#8
def CloseCause.code : CloseCause → Byte
  | .unterminated => 0x01#8 | .trailer => 0x02#8 | .trailerMismatch => 0x03#8
  | .abandoned => 0x04#8 | .command => 0x05#8
def Edge.code : Edge → Byte
  | .rising => 0x00#8 | .falling => 0x01#8 | .event => 0x02#8
def Source.code : Source → Byte
  | .lane l => BitVec.ofNat 8 l.val
  | .device => 0xFF#8
def OperationKind.code : OperationKind → Byte
  | .find => 0x01#8 | .sweep => 0x02#8 | .purge => 0x03#8
def Termination.code : Termination → Byte
  | .normal => 0x00#8 | .notSatisfied => 0x01#8 | .aborted => 0x02#8
def LaneState.code : LaneState → Byte
  | .disabled => 0x00#8 | .silent => 0x01#8 | .active => 0x02#8 | .stopped => 0x03#8
def LaneLevel.code : LaneLevel → Byte
  | .empty => 0x00#8 | .low => 0x01#8 | .high => 0x02#8 | .full => 0x03#8
def ViolationCause.code : ViolationCause → Byte
  | .none => 0x00#8 | .beginWhileReading => 0x01#8 | .sequenceBreak => 0x02#8 | .unknownItem => 0x03#8
def StartCause.code : StartCause → Byte
  | .powerOn => 0x01#8 | .clear => 0x02#8 | .restart => 0x03#8
def RecordType.code : RecordType → Byte
  | .heartbeat => 0x01#8 | .itemBegin => 0x02#8 | .observation => 0x03#8
  | .itemEnd => 0x04#8 | .atGate => 0x05#8 | .confirm => 0x06#8
def AnnounceOutcome.code : AnnounceOutcome → Byte
  | .inserted => 0x01#8 | .replaced => 0x02#8
/-- The claim causes have no code in R193: a free value (notes/assumptions/13.md). -/
def ClaimCause.code : ClaimCause → Byte
  | .overdue => Config.claimCauseCode 0
  | .gap => Config.claimCauseCode 1
  | .slidOut => Config.claimCauseCode 2

/-! Fields. -/

/-- A byte whose bits are given, bit 0 first. -/
def bitsByte (bs : List Bool) : Byte :=
  BitVec.ofNat 8 (bs.foldr (fun b n => 2 * n + b.toNat) 0)
/-- Two bytes whose bits are given, bit 0 first. -/
def bitsHalf (bs : List Bool) : List Byte := num16 (bs.foldr (fun b n => 2 * n + b.toNat) 0)
def outletByte (o : Fin 8) : Byte := BitVec.ofNat 8 o.val
def deskByte (d : Fin 4) : Byte := BitVec.ofNat 8 d.val
def laneByte (l : LaneId) : Byte := BitVec.ofNat 8 l.val
/-- R193: a key is its scheme code, its text length and its text in character form. -/
def Key.bytes (k : Key) : List Byte := k.scheme.code :: num8 k.text.length ++ k.text
/-- R14, R193: an accession number is eight digit bytes and its check character. -/
def accessionBytes (n : Nat) : List Byte := (decimal 8 n ++ [accessionCheck n]).map digitChar
/-- The fields of a record that are present, one after another, with no presence byte: the presence bits stand before them. -/
def present {α : Type} (f : α → List Byte) : Option α → List Byte
  | none => []
  | some a => f a
/-- The bytes of an absent field that keeps its place: free values (notes/assumptions/13.md). -/
def absentBytes (field width : Nat) : List Byte := (List.range width).map (Config.absentByte field)
def LevelEnable.byte (e : LevelEnable) : Byte := bitsByte [e.rising, e.falling]
def eventByte (b : Bool) : Byte := bitsByte [b]
/-- A reply's notice enables: every condition of the kind, in code order (notes/assumptions/14.md). -/
def LaneEnables.bytes (e : LaneEnables) : List Byte :=
  enablesBytes [⟨.silent, e.silent.byte⟩, ⟨.stopped, e.stopped.byte⟩, ⟨.diverterFault, e.diverterFault.byte⟩,
    ⟨.held, e.held.byte⟩, ⟨.testSync, e.testSync.byte⟩, ⟨.levelChange, eventByte e.levelChange⟩,
    ⟨.checkFail, eventByte e.checkFail⟩, ⟨.slipSeen, eventByte e.slipSeen⟩, ⟨.phantom, eventByte e.phantom⟩]
def DeviceEnables.bytes (e : DeviceEnables) : List Byte :=
  enablesBytes [⟨.claimListFull, e.claimListFull.byte⟩, ⟨.reportSpaceLow, e.reportSpaceLow.byte⟩,
    ⟨.tableFull, e.tableFull.byte⟩, ⟨.accessionExhausted, eventByte e.accessionExhausted⟩]
def OutletMap.bytes (m : OutletMap) : List Byte :=
  [m.preserve, m.reading, m.transfer, m.serials, m.return_, m.query0, m.query1, m.query2, m.query3, m.runout].map outletByte
/-- R79: the configuration, whole, in the order of R75. -/
def LaneConfig.bytes (c : LaneConfig) : List Byte :=
  num8 c.depth ++ c.outlets.bytes ++ [c.slip.code] ++ num8 c.silence ++ num16 c.confirm ++ c.enables.bytes
def LaneCounters.list (c : LaneCounters) : List Nat :=
  [c.admitted, c.refused, c.decided, c.diverted, c.runOut, c.flushed, c.late, c.missing, c.phantom, c.checkFails,
    c.violations, c.linkErrors, c.stale, c.confirmFaults]
def LinkCounters.list (c : LinkCounters) : List Nat :=
  [c.framesTaken, c.crcErrors, c.lengthErrors, c.unknownCodes, c.commandsDropped, c.repliesSent, c.batchesSent,
    c.recordsSent, c.noticesDropped]

/-! Report records. -/

def IdentEntry.bytes (e : IdentEntry) : List Byte :=
  [e.scheme, bitsByte [e.checked, e.checkFail]] ++ num8 e.text.length ++ e.text

def Disposition.fields (d : Disposition) : List Byte :=
  [laneByte d.lane] ++ be16 d.sq ++ [d.outcome.code, outletByte d.outlet, d.cls.code, d.reason.code, d.confirm.code,
    bitsByte [d.dry, d.oversize, d.satisfied, d.claimed, d.diverterFault, d.notOpened]] ++
  bitsHalf [d.desk.isSome, d.key.isSome, d.copy.isSome, d.range.isSome, d.accession.isSome, d.weight.isSome,
    d.size.isSome, d.medium.isSome, d.consignment.isSome] ++
  present (fun x => [deskByte x]) d.desk ++ present Key.bytes d.key ++ present num8 d.copy ++
  present (fun r => num32 r.1 ++ num32 r.2) d.range ++ present accessionBytes d.accession ++
  present be16 d.weight ++ present (fun z => be16 z.1 ++ be16 z.2.1 ++ be16 z.2.2) d.size ++
  present (fun m => [Medium.code m]) d.medium ++ present num16 d.consignment ++
  num8 d.identifiers.length ++ d.identifiers.flatMap IdentEntry.bytes

def Summary.fields (x : Summary) : List Byte :=
  num16 x.consignment.number ++ [laneByte x.lane] ++ num32 x.consignment.publisher ++ num16 x.consignment.declared ++
  num16 x.consignment.counted ++ num16 x.consignment.matched ++ num16 x.consignment.surplus ++
  num16 x.consignment.unannounced ++ num16 x.consignment.checkFails ++
  num16 x.consignment.openingDay ++ num16 x.closingDay ++ [x.cause.code, bitsByte [x.consignment.dry, x.overDeclared]]

/-- The action code of SLIP SEEN, with the consignment number and the close cause, each 0 when none. -/
def SlipAction.bytes : SlipAction → List Byte
  | .opened n => 0x01#8 :: num16 n ++ [0x00#8]
  | .notOpened => 0x02#8 :: num16 0 ++ [0x00#8]
  | .closed n c => 0x03#8 :: num16 n ++ [c.code]
  | .noConsignment => 0x04#8 :: num16 0 ++ [0x00#8]
  | .plain => 0x05#8 :: num16 0 ++ [0x00#8]
def SlipContent.bytes (c : SlipContent) : List Byte :=
  [if c.trailer then 0x02#8 else 0x01#8] ++ num32 c.publisher ++ num16 c.declared
def Detail.bytes : Detail → List Byte
  | .none => []
  | .violation c => [c.code]
  | .level v => [v.code]
  | .checkFail s n => be16 s ++ num16 n
  | .item s => be16 s
  | .slip s c a => be16 s ++ c.bytes ++ a.bytes
  | .testValue v => num16 v.toNat
  | .count n => num16 n
  | .laneItem l s => laneByte l :: be16 s
  | .started c => [c.code]
/-- R193: the day keeps its two bytes when it is absent: the detail length stands at offset 9 and the detail at 10. -/
def Notice.fields (n : Notice) : List Byte :=
  [n.source.code, n.condition.code, n.edge.code] ++ keptBytes (absentBytes 0 2) num16 n.day ++ num8 n.detail.bytes.length ++ n.detail.bytes

def Hit.bytes (h : Hit) : List Byte := num16 h.slot ++ [h.kind.code, h.status.code] ++ h.key.bytes
def OperationResult.kind : OperationResult → OperationKind
  | .find _ => .find
  | .sweep _ _ => .sweep
  | .purge _ => .purge
def OperationResult.bytes : OperationResult → List Byte
  | .find h => optBytes Hit.bytes h
  | .sweep r o => num32 r ++ num32 o
  | .purge f => num16 f
def Completion.fields (c : Completion) : List Byte :=
  [c.result.kind.code, c.termination.code] ++ num16 c.start ++ num16 c.next ++ num16 c.examined ++ c.result.bytes

def ReportRecord.kindByte : ReportRecord → Byte
  | .disposition _ => 0x01#8 | .summary _ => 0x02#8 | .notice _ => 0x03#8 | .completion _ => 0x04#8
def ReportRecord.fields : ReportRecord → List Byte
  | .disposition d => d.fields
  | .summary x => x.fields
  | .notice n => n.fields
  | .completion c => c.fields
/-- The bytes of a record: its kind, a length that counts the whole record, and its fields. -/
def ReportRecord.bytes (r : ReportRecord) : List Byte :=
  r.kindByte :: num16 (r.fields.length + 3) ++ r.fields
/-- R187: the records a batch takes from the front: as many as fit in what is left of a body, and no more than n. -/
def fitting : Nat → Nat → List ReportRecord → List ReportRecord
  | 0, _, _ => []
  | _ + 1, _, [] => []
  | n + 1, room, r :: t => if r.bytes.length ≤ room then r :: fitting n (room - r.bytes.length) t else []

/-! Replies. -/

def Cell.byte (c : Cell) : Byte := BitVec.ofNat 8 (c.count + if c.claimed then 128 else 0)
/-- R193: the title record body, whole, as READ TITLE returns it, each field in the width of the table: the days with presence take 3
bytes, w and h 9, the two lags 5. -/
def TitleRecord.bytes (r : TitleRecord) : List Byte :=
  r.key.bytes ++ [r.kind.code, r.status.code] ++ num32 r.publisher ++ num8 r.q ++ r.plan.map (fun c => ItemClass.code c.cls) ++
  num16 r.announceDay ++
  (match r.body with
    | .monograph m => keptBytes (absentBytes 1 2) num16 m.due ++ keptBytes (absentBytes 2 2) num16 r.lastArrival ++
        num8 m.copies ++ [m.claim.code]
    | .serial p => keptBytes (absentBytes 1 2) num16 none ++ keptBytes (absentBytes 2 2) num16 r.lastArrival ++ num16 p.p ++
        num16 p.vb ++ num32 p.first ++ num32 p.w ++ keptBytes (absentBytes 3 4) num32 p.h ++
        keptBytes [] num8 (some p.gapLag) ++ keptBytes [] num16 (some p.dayLag) ++ p.cells.map Cell.byte)
/-- R26: the standing of a record before or after an amend. That a SERIAL's is its status alone, with no presence byte for the copies
received and the claim state it does not have, is the model's reading; so is the one byte of the copies received, the width that R193's
title record table gives them, where its list gives a count two (DEDUCED; notes/assumptions/12.md). -/
def Standing.bytes (x : Standing) : List Byte :=
  x.status.code :: present (fun m => num8 m.1 ++ [m.2.code]) x.monograph
def ListEntry.bytes (e : ListEntry) : List Byte :=
  num16 e.slot ++ e.key.bytes ++ [e.kind.code, e.status.code] ++ flagByte e.tombstone
/-- R143, R153: the fields of a taken entry. That the ordinals and the copies missing have no presence byte, the kind deciding which of them
stand, is the model's reading (DEDUCED; notes/assumptions/12.md). -/
def ClaimEntry.bytes (e : ClaimEntry) : List Byte :=
  e.key.bytes ++ (match e.body with
    | .monograph m => Kind.monograph.code :: num16 m
    | .issues f l => Config.issuesKindCode :: num32 f ++ num32 l) ++
  num8 e.q ++ [e.cause.code] ++ num16 e.day
def ViolationRecord.bytes (v : ViolationRecord) : List Byte := v.type.code :: be16 v.sq ++ optBytes be16 v.expected
/-- The codes of belt reported, NONE 00H. -/
def beltReported : Option Belt → Byte
  | none => 0x00#8
  | some b => b.code
/-- The codes of diverter reported, NONE 00H. -/
def diverterReported : Option Diverter → Byte
  | none => 0x00#8
  | some d => d.code
def LaneView.bytes (v : LaneView) : List Byte :=
  [v.state.code, v.mode.code] ++ flagByte v.configured ++ flagByte v.sync ++ flagByte v.hold ++ [v.level.code] ++
  num16 v.occupancy ++ flagByte v.confirmHold ++ flagByte v.faultLevel ++ num16 v.faults ++ optBytes be16 v.expected ++
  [v.cause.code] ++ optBytes ViolationRecord.bytes v.violation ++ [beltReported v.belt, diverterReported v.diverter] ++
  v.config.bytes ++ v.counters.list.flatMap num32
def TestUnit.bytes (t : TestUnit) : List Byte :=
  num16 t.generator.toNat ++ t.outstanding.flatMap (fun o => num16 o.value.toNat ++ flagByte o.injected) ++
  flagByte t.inject ++ flagByte t.inSync ++ num16 t.correctRun ++ num16 t.errorRun ++
  [t.sent, t.correct, t.errors, t.injectedDetected, t.unsolicited, t.echoed].flatMap num32
/-- R130: the fields of an open context, in the order of the table. -/
def Consignment.bytes (l : LaneId) (c : Consignment) : List Byte :=
  num16 c.number ++ [laneByte l] ++ num32 c.publisher ++ num16 c.declared ++ num16 c.counted ++ num16 c.matched ++
  num16 c.surplus ++ num16 c.unannounced ++ num16 c.checkFails ++ num16 c.openingDay ++ flagByte c.dry
/-- R159: the operation, its parameters, the current slot and the counts it has. -/
def EngineContext.bytes (e : EngineContext) : List Byte :=
  [e.op.kind.code] ++ (match e.op with
    | .find f => f.bytes
    | .sweep => []
    | .purge => []) ++ num16 e.current ++ num16 e.examined ++
  (match e.op with
    | .find _ => []
    | .sweep => num32 e.raised ++ num32 e.owed
    | .purge => num16 e.freed)
/-- R127: a next number of 100,000,000 is shown as EXHAUSTED; its bytes are a free value (notes/assumptions/13.md). -/
def nextNumberBytes (n : Nat) : List Byte :=
  if n ≤ Config.lastAccession then accessionBytes n else Config.exhaustedBytes

/-- The data of a reply: the fields its command's rule names, in the order named (R193). Three readings are the model's (DEDUCED;
notes/assumptions/12.md): the next number after SET ACCESSION BASE has a presence byte though it is never absent (R126); the counts of
CLOSE CONSIGNMENT are counted, matched, surplus, unannounced and check-fails, without the declared count (R138); the open flag of READ
CONSIGNMENT is the presence byte of the open context's fields, which have none of their own (R139). -/
def ReplyData.bytes : ReplyData → List Byte
  | .empty => []
  | .identity => be16 Config.vendorCode ++ be16 Config.partNumber ++ [Config.revision] ++
      [8, Config.titleSlots, Config.claimEntries, Config.reportSlots, Config.itemSlots].flatMap num16
  | .counters link lanes => link.list.flatMap num32 ++ lanes.flatMap (fun c => c.list.flatMap num32)
  | .deviceEnables e => e.bytes
  | .holdTime ms => num16 ms
  | .due n => num16 n
  | .announced slot o => num16 slot ++ [o.code]
  | .amended b a => b.bytes ++ a.bytes
  | .withdrawn slot st => num16 slot ++ [st.code]
  | .title slot r => num16 slot ++ r.bytes
  | .titles es next e => es.flatMap ListEntry.bytes ++ num16 next ++ flagByte e
  | .day before now => optBytes num16 before ++ num16 now
  | .run slot w h now => num16 slot ++ num32 w ++ optBytes num32 h ++ num32 now
  | .laneConfig c => c.bytes
  | .laneMode m => [m.code]
  | .disabled st n => st.code :: num16 n
  | .lane v => v.bytes
  | .diverter level faults => flagByte level ++ num16 faults
  | .modes b a => [b.code, a.code]
  | .test m t => m.code :: t.bytes
  | .accessionBase b a => optBytes nextNumberBytes b ++ optBytes nextNumberBytes (some a)
  | .accession bs next last f =>
      flagByte bs ++ optBytes nextNumberBytes next ++ optBytes accessionBytes last ++ flagByte f
  | .steering ds => ds.toList.map deskByte
  | .consignmentClosed c o =>
      num16 c.number ++ [c.counted, c.matched, c.surplus, c.unannounced, c.checkFails].flatMap num16 ++ flagByte o
  | .consignment l c stray next =>
      optBytes (fun x => x.1.bytes l ++ flagByte x.2) c ++ num32 stray ++ num16 next
  | .claims es n => es.flatMap ClaimEntry.bytes ++ num16 n
  | .grace b n => num16 b ++ num16 n
  | .claimStatus c => num16 c.count ++ num32 c.lost ++ flagByte c.full ++ num16 c.grace ++ num16 c.monographs ++
      num16 c.issues ++ optBytes num16 c.oldestDay
  | .operation op slot => op.code :: num16 slot
  | .engine e => optBytes EngineContext.bytes e

/-- R193: the NOT READY detail is one byte; the BUSY detail is a code and, for an operation in progress, the operation. -/
def RefusalDetail.bytes : RefusalDetail → List Byte
  | .none => []
  | .notReady c d a => [bitsByte [c, d, a]]
  | .operationInProgress op => [0x01#8, op.code]
  | .noReportSpace => [0x02#8]
/-- R193: the form byte, and the data, or the reason with its detail. -/
def ReplyBody.bytes : ReplyBody → List Byte
  | .done d => 0x00#8 :: d.bytes
  | .accepted d => 0x01#8 :: d.bytes
  | .refused r d => [0x02#8, r.code] ++ num8 d.bytes.length ++ d.bytes

/-- R187, R193: the body of a batch: its record count and its records. -/
def batchBody (rs : List ReportRecord) : List Byte := num16 rs.length ++ rs.flatMap ReportRecord.bytes
/-- The frame in transmission on the outbound line; an idle line sends nothing. -/
def Line.frame : Line → List Byte
  | .idle => []
  | .reply r => hostFrame r.code r.tag r.body.bytes
  | .batch tag rs _ => hostFrame 0x40#8 tag (batchBody rs)

/-! Records of a lane link. -/

/-- R63: a record the lane interface sends, from its start byte to its check byte. -/
def LaneOut.bytes : LaneOut → List Byte
  | .admission s => laneRecord 0x81#8 (be16 s)
  | .refuse s => laneRecord 0x82#8 (be16 s)
  | .hold => laneRecord 0x83#8 []
  | .release => laneRecord 0x84#8 []
  | .divert s o => laneRecord 0x85#8 (be16 s ++ [outletByte o])
  | .testItem v c => laneRecord 0x86#8 (num16 v.toNat ++ num8 c)
  | .echo r => laneRecord 0x87#8 r.bytes

end Sys2Proof.Machine
end

