-- ==== Sys2Proof/Machine/Ops.lean ====
section
/-! DEFINITION. The operations every command is made of: the lanes of the state, the report unit (R185 to R189), the host line (R182,
R184, R187), what a lane sends (R63), its hold flag and level (R87, R88, R92), the closing of consignments and confirm windows (R136,
R99, R101), the ending of items (R103, R104), violations (R73) and the taking of a station record (R66 to R68). -/

namespace Sys2Proof.Machine

/-- What a step answers. -/
abbrev Result := Host.Outcome State Fault Refusal

/-! The lanes of the state. -/

def State.lane (s : State) (l : LaneId) : Lane := s.lanes[l]
def State.setLane (s : State) (l : LaneId) (v : Lane) : State := { s with lanes := s.lanes.set l.val v l.isLt }
def State.onLane (s : State) (l : LaneId) (f : Lane → Lane) : State := s.setLane l (f (s.lane l))
/-- A change of a lane's counters (R81). -/
def State.onCounters (s : State) (l : LaneId) (f : LaneCounters → LaneCounters) : State :=
  s.onLane l fun v => { v with counters := f v.counters }
/-- A change of the link counters (R190). -/
def State.onLink (s : State) (f : LinkCounters → LinkCounters) : State :=
  { s with host := { s.host with counters := f s.host.counters } }
def State.onReport (s : State) (f : ReportUnit → ReportUnit) : State := { s with report := f s.report }
/-- The open consignment of a lane (R130). -/
def State.consignment (s : State) (l : LaneId) : Option Consignment := s.consign.contexts[l]
def State.setConsignment (s : State) (l : LaneId) (c : Option Consignment) : State :=
  { s with consign := { s.consign with contexts := s.consign.contexts.set l.val c l.isLt } }

/-- R81: one more stale record. -/
def State.countStale (s : State) (l : LaneId) : State := s.onCounters l fun c => { c with stale := bump c.stale }
/-- R60, R61: one more link error. -/
def State.countLinkError (s : State) (l : LaneId) : State :=
  s.onCounters l fun c => { c with linkErrors := bump c.linkErrors }

/-! The report unit. -/

/-- R186: the send point moves to the newest filled record, when there is one; no waiting record is left, so the hold timer stops. -/
def ReportUnit.sendAll (r : ReportUnit) : ReportUnit :=
  match r.filled.length with
  | 0 => r
  | n + 1 => { r with sendPoint := some n, holdTimer := none }
/-- R186: a record filled behind the others. It makes everything due when four or more stand filled, when item space is below 32, or at
a hold time of 0; otherwise it waits, and the hold timer runs. -/
def ReportUnit.fill (r : ReportUnit) (x : ReportRecord) : ReportUnit :=
  let r' := { r with filled := r.filled ++ [x] }
  if Config.dueFill ≤ r'.filled.length ∨ r'.unreserved < Config.lowSpace ∨ r'.holdTime = 0 then r'.sendAll
  else { r' with holdTimer := some (r'.holdTimer.getD r'.holdTime) }
/-- R185: a disposition record or a summary is filled into a reserved item slot. -/
def ReportUnit.fillItem (r : ReportUnit) (x : ReportRecord) : ReportUnit :=
  ({ r with reservedItem := r.reservedItem - 1 } : ReportUnit).fill x
/-- R162, R185: a completion record is filled into the engine's slot. -/
def ReportUnit.fillCompletion (r : ReportUnit) (c : Completion) : ReportUnit :=
  ({ r with reservedNonItem := r.reservedNonItem - 1 } : ReportUnit).fill (.completion c)
/-- R185: whether an item slot can be reserved. -/
def ReportUnit.itemRoom (r : ReportUnit) : Bool := decide (r.usedItem < Config.itemSlots)
/-- R185: whether a non-item slot is free. -/
def ReportUnit.nonItemRoom (r : ReportUnit) : Bool := decide (r.usedNonItem < Config.nonItemSlots)
def ReportUnit.reserveItem (r : ReportUnit) : ReportUnit := { r with reservedItem := r.reservedItem + 1 }

/-- R189: a notice asked is filled, stamped with the day, and the send point moves to it; with no non-item slot free it is dropped. -/
def State.ask (s : State) (source : Source) (condition : NoticeCondition) (edge : Edge) (detail : Detail) : State :=
  if s.report.nonItemRoom then
    s.onReport fun r =>
      ({ r with filled := r.filled ++ [.notice ⟨source, condition, edge, s.table.day, detail⟩] } : ReportUnit).sendAll
  else s.onLink fun c => { c with noticesDropped := bump c.noticesDropped }
/-- R78: a lane condition is asked only when its enable is on. -/
def State.laneNotice (s : State) (l : LaneId) (condition : NoticeCondition) (edge : Edge) (detail : Detail) : State :=
  if (s.lane l).config.enables.on condition edge then s.ask (.lane l) condition edge detail else s
/-- R189: a device condition is asked only when its enable is on; STARTED has none. -/
def State.deviceNotice (s : State) (condition : NoticeCondition) (edge : Edge) (detail : Detail) : State :=
  if s.report.enables.on condition edge then s.ask .device condition edge detail else s
/-- The edge at which a level condition takes the value given. -/
def edgeOf (now : Bool) : Edge := if now then .rising else .falling

/-- R185: the report unit tells every lane that no report space has begun or ended; the news travels to each. -/
def State.tellLanes (s : State) (noSpace : Bool) : State :=
  { s with lanes := Vector.ofFn fun i => { s.lanes[i] with news := s.lanes[i].news ++ [noSpace] } }
/-- R185: the two conditions settled from the unreserved item slots at the end of a request that changes them; a request that brings
them below 32 makes every filled record due (R186). -/
def State.settleReport (s : State) : State :=
  let free := s.report.unreserved
  let low := decide (free < Config.lowSpace)
  let no := free == 0
  let s₁ := s.onReport fun r => { r with spaceLow := low, noSpace := no }
  let s₂ := if no = s.report.noSpace then s₁ else s₁.tellLanes no
  if low = s.report.spaceLow then s₂
  else
    let s₃ := if low then s₂.onReport ReportUnit.sendAll else s₂
    s₃.deviceNotice .reportSpaceLow (edgeOf low) (.count free)

/-! The host line. -/

/-- R187: the records of the batch that is ready: due, from the front, at most 16, in a body of 1024 bytes with its record count. -/
def ReportUnit.batch (r : ReportUnit) : List ReportRecord :=
  fitting (min Config.maxBatch r.due) (Config.maxBody - 2) r.filled
/-- R184: the arbiter hands a free line to the oldest waiting reply, or else to a batch that is ready. -/
def State.grant (s : State) : State :=
  match s.host.line, s.host.replies with
  | .idle, r :: t => { s with host := { s.host with line := .reply r, replies := t } }
  | .idle, [] =>
    if !s.report.reportsHeld && s.report.due != 0 then
      { s with host := { s.host with
          line := .batch s.report.batchNumber s.report.batch s.report.batch.length } }
    else s
  | _, _ => s
/-- Every event ends with the line granted when it is free. -/
def State.done (s : State) : Result := .next s.grant

/-- R193: a reply's code is the command's code plus 80H; R182: FFH for an unknown code of 80H or above. -/
def replyCode (code : Byte) : Byte := if code.toNat < 0x80 then code + 0x80#8 else 0xFF#8
/-- R182: the reply enters the tail of the reply queue. -/
def State.reply (s : State) (code tag : Byte) (b : ReplyBody) : State :=
  { s with host := { s.host with replies := s.host.replies ++ [⟨replyCode code, tag, b⟩] } }
/-- R182: a complete frame that finds 8 replies waiting is discarded; otherwise the block that owns the command takes it whole and gives
exactly one reply. -/
def State.takeFrame (s : State) (code tag : Byte) (run : State → State × ReplyBody) : Result :=
  let s₁ := s.onLink fun c => { c with framesTaken := bump c.framesTaken }
  if Config.replyQueue ≤ s.host.replies.length then
    .next (s₁.onLink fun c => { c with commandsDropped := bump c.commandsDropped })
  else
    let out := run s₁
    (out.1.reply code tag out.2).done
/-- R183: a refusal with an empty detail. -/
def refuse (r : RefusalReason) : ReplyBody := .refused r .none
/-- R183: a malformed body is refused INVALID; a refused command changes nothing. -/
def State.command {α : Type} (s : State) (code tag : Byte) (body : Body α) (run : α → State → State × ReplyBody) : Result :=
  s.takeFrame code tag fun s =>
    match body with
    | .malformed => (s, refuse .invalid)
    | .fields a => run a s
/-- A command that names a lane: a number outside 0 to 7 is refused INVALID. -/
def State.withLane (s : State) (b : Byte) (run : LaneId → State × ReplyBody) : State × ReplyBody :=
  match laneOf b with
  | some l => run l
  | none => (s, refuse .invalid)
/-- A command that names a title: a key that is not a valid BOOK, SERIAL or LOCAL identifier is refused INVALID (R9). -/
def State.withKey (s : State) (k : KeyText) (run : Key → State × ReplyBody) : State × ReplyBody :=
  match keyOf k with
  | some v => run v
  | none => (s, refuse .invalid)

/-! What a lane sends, its hold flag and its level. -/

/-- R63: a record is sent in the order produced; it begins at once when nothing is being sent. -/
def Lane.produce (v : Lane) (r : LaneOut) : Lane :=
  match v.sending with
  | none => { v with sending := some r }
  | some _ => { v with outbox := v.outbox ++ [r] }
def State.send (s : State) (l : LaneId) (r : LaneOut) : State := s.onLane l fun v => v.produce r
/-- R87, R88: the hold flag follows its conditions; a change is told the station and gives a HELD edge. -/
def State.reevaluate (s : State) (l : LaneId) : State :=
  let now := (s.lane l).holdConditions
  if now = (s.lane l).hold then s
  else
    let s₁ := s.onLane l fun v => ({ v with hold := now } : Lane).produce (if now then .hold else .release)
    s₁.laneNotice l .held (edgeOf now) .none
/-- R92: a LEVEL CHANGE event when the level differs from the one before the taking. -/
def State.levelNotice (s : State) (l : LaneId) (before : LaneLevel) : State :=
  if (s.lane l).level = before then s
  else s.laneNotice l .levelChange .event (.level (s.lane l).level)

/-! Consignments, items and confirm windows. -/

/-- R136: the open consignment of a lane is closed and its summary filled into its slot; with none open nothing is done. -/
def State.closeConsignment (s : State) (l : LaneId) (cause : CloseCause) : State :=
  match s.consignment l with
  | none => s
  | some c =>
    (s.onReport fun r => r.fillItem (.summary ⟨l, c, cause, s.table.today, c.overDeclared⟩)).setConsignment l none

/-- R15: an entry of the identifier list. -/
def identEntry : HeldObservation → Option IdentEntry
  | .ident i j => some ⟨i.scheme, i.text, j != .unchecked, j == .invalid⟩
  | .weight _ | .size _ _ _ | .medium _ => none
def weightOf : HeldObservation → Option Half
  | .weight g => some g
  | .ident _ _ | .size _ _ _ | .medium _ => none
def sizeOf : HeldObservation → Option (Half × Half × Half)
  | .size h w d => some (h, w, d)
  | .ident _ _ | .weight _ | .medium _ => none
def mediumOf : HeldObservation → Option Medium
  | .medium m => some m
  | .ident _ _ | .weight _ | .size _ _ _ => none
/-- R103: the outlet of the decision, or the RUNOUT outlet when there is none. -/
def Item.decidedOutlet (i : Item) (m : OutletMap) : Fin 8 :=
  match i.decision with
  | some d => d.outlet
  | none => m.runout
/-- R103: the decision's reason; the reason given for an item that has none. -/
def Item.reasonOr (i : Item) (r : Reason) : Reason := (i.decision.bind (·.reason)).getD r
/-- R103: the disposition record of an item. -/
def Item.disposition (i : Item) (outcome : ItemOutcome) (outlet : Fin 8) (reason : Reason) (confirm : ConfirmResult)
    (fault : Bool) : Disposition where
  lane := i.lane
  sq := i.sq
  outcome := outcome
  outlet := outlet
  cls := (i.decision.map (·.cls)).getD .runout
  reason := reason
  confirm := confirm
  dry := (i.decision.map (·.dry)).getD false
  oversize := i.oversize
  satisfied := (i.decision.map (·.satisfied)).getD false
  claimed := (i.decision.map (·.claimed)).getD false
  diverterFault := fault
  notOpened := (i.decision.map (·.notOpened)).getD false
  desk := i.decision.bind (·.desk)
  key := i.decision.bind (·.key)
  copy := i.decision.bind (·.copy)
  range := i.decision.bind (·.range)
  accession := i.decision.bind (·.accession)
  weight := i.observations.findSome? weightOf
  size := i.observations.findSome? sizeOf
  medium := i.observations.findSome? mediumOf
  consignment := i.consignment
  identifiers := i.observations.filterMap identEntry
/-- R103: an item that ends on a NORMAL or DRY lane fills its record into its slot; on a TEST lane it ends silently (R176). -/
def State.endItem (s : State) (l : LaneId) (i : Item) (outcome : ItemOutcome) (outlet : Fin 8) (reason : Reason)
    (confirm : ConfirmResult) (fault : Bool) : State :=
  if accounts (s.lane l).mode then
    s.onReport fun r => r.fillItem (.disposition (i.disposition outcome outlet reason confirm fault))
  else s

/-- R101: the consecutive fault count and the level after a window closes with a result. -/
def Lane.countFault (v : Lane) (r : ConfirmResult) : Lane :=
  match r with
  | .confirmed => { v with faults := 0 }
  | .unconfirmed => v
  | .misrouted | .noConfirm =>
    { v with
      faults := min (v.faults + 1) Config.faultLimit
      faultLevel := v.faultLevel || decide (Config.faultLimit ≤ v.faults + 1)
      counters := { v.counters with confirmFaults := bump v.counters.confirmFaults } }
/-- R99 to R101: the open window closes: the hold is emptied, the held item's record is filled, and a third consecutive fault sets the
DIVERTER FAULT level. With no window open nothing is done. -/
def State.closeWindow (s : State) (l : LaneId) (r : ConfirmResult) : State :=
  match (s.lane l).held with
  | none => s
  | some h =>
    let s₁ := s.onLane l fun v => ({ v with held := none } : Lane).countFault r
    let s₂ := s₁.endItem l h.item .diverted h.outlet (h.item.reasonOr .incomplete) r false
    if (s₁.lane l).faultLevel = (s.lane l).faultLevel then s₂
    else s₂.laneNotice l .diverterFault .rising .none

/-- R104: one item leaves in a flush; a READING item is INCOMPLETE whatever the cause. -/
def State.flushItem (l : LaneId) (reason : Reason) (s : State) (i : Item) : State :=
  let s₁ := s.onCounters l fun c => { c with flushed := bump c.flushed }
  s₁.endItem l i .flushed (i.decidedOutlet (s.lane l).config.outlets)
    (if i.state = .reading then .incomplete else reason) .unconfirmed false
/-- R104: the window closes UNCONFIRMED, then every queued item leaves, from head to tail. -/
def State.flush (s : State) (l : LaneId) (reason : Reason) : State :=
  let s₁ := s.closeWindow l .unconfirmed
  ((s₁.lane l).queue.foldl (State.flushItem l reason) s₁).onLane l fun v => { v with queue := [] }
/-- R174: a lane that leaves service goes OUT OF SYNC and loses its inject flag. -/
def State.leaveService (s : State) (l : LaneId) : State :=
  let s₁ := s.onLane l fun v => { v with test := { v.test with inSync := false, inject := false } }
  if (s.lane l).test.inSync then s₁.laneNotice l .testSync .falling .none else s₁
/-- R104, R137, R174: the items and the consignment of a lane that leaves service, and the level and sync they leave behind. -/
def State.sweepLane (s : State) (l : LaneId) (reason : Reason) : State :=
  (((s.flush l reason).closeConsignment l .abandoned).levelNotice l (s.lane l).level).leaveService l
/-- R73: a violation flushes the lane, closes its consignment and makes it STOPPED. The records produced before it and not yet begun stay
and are sent: R73 orders no discard, and R68 is read of records that a STOPPED lane would produce (DESIGN CHOICE;
notes/assumptions/26.md). -/
def State.violate (s : State) (l : LaneId) (cause : ViolationCause) (type : RecordType) (sq : Seq) : State :=
  let s₁ := s.onLane l fun v =>
    { v with
      counters := { v.counters with violations := bump v.counters.violations }
      cause := cause
      violation := some ⟨type, sq, v.expected⟩ }
  let s₂ := s₁.sweepLane l .laneStopped
  let s₃ := s₂.onLane l fun v => { v with state := .stopped, silenceTimer := none }
  (s₃.laneNotice l .stopped .rising (.violation cause)).reevaluate l

/-! The test pattern unit (R175). -/

/-- R175: one TEST ITEM: its value, its check digit (made wrong once by the inject flag), its outstanding entry and the step. -/
def Lane.testItem (v : Lane) : Lane :=
  let t := v.test
  let check := if t.inject then (testCheck t.generator + 1) % 10 else testCheck t.generator
  ({ v with
      test := { t with
        outstanding := t.outstanding ++ [⟨t.generator, t.inject⟩]
        inject := false
        generator := generatorStep t.generator
        sent := bump t.sent } } : Lane).produce (.testItem t.generator check)
/-- R175: at most n TEST ITEMs, while the lane is ACTIVE and fewer than 4 are outstanding. -/
def Lane.testItems : Nat → Lane → Lane
  | 0, v => v
  | n + 1, v =>
    if v.state = .active ∧ v.test.outstanding.length < Config.maxOutstanding then Lane.testItems n v.testItem else v
/-- R175: what a TEST lane sends at the end of each taking. -/
def State.feedTest (s : State) (l : LaneId) : State :=
  s.onLane l fun v => if v.mode = .test then v.testItems Config.maxOutstanding else v

/-! The taking of a station record. -/

/-- R74: the belt and diverter reported. -/
def State.noteBelt (s : State) (l : LaneId) (b : Belt) (d : Diverter) : State :=
  s.onLane l fun v => { v with belt := some b, diverter := some d }
/-- What a HEARTBEAT reports; the other records report nothing. -/
def State.reportOf (s : State) (l : LaneId) (r : StationRecord) : State :=
  match r with
  | .heartbeat b d => s.noteBelt l b d
  | .itemBegin _ | .observation _ _ | .itemEnd _ _ | .atGate _ | .confirm _ _ => s
/-- R67: the silence timer restarted at the configured timeout. -/
def State.restartSilence (s : State) (l : LaneId) : State :=
  s.onLane l fun v => { v with silenceTimer := some v.config.silence }
/-- R173: the station record is returned whole and counted. -/
def State.echo (s : State) (l : LaneId) (r : StationRecord) : State :=
  (s.onLane l fun v => { v with test := { v.test with echoed := bump v.test.echoed } }).send l (.echo r)
/-- R66: the entry into ACTIVE. -/
def State.enterActive (s : State) (l : LaneId) : State :=
  let s₁ := s.onLane l fun v =>
    { v with state := .active, sync := true, silenceTimer := some v.config.silence }
  (s₁.laneNotice l .silent .falling .none).reevaluate l
/-- What an ACTIVE lane does with a valid record: an ECHO lane returns it (R173); any other acts on it, and a TEST lane then sends its
TEST ITEMs. -/
def State.takeRecord (s : State) (l : LaneId) (r : StationRecord) (act : State → State) : State :=
  if (s.lane l).mode = .echo then (s.reportOf l r).echo l r else (act s).feedTest l
/-- R66 to R68, R69: a station record as the lane's state takes it. One that is not well formed is a link error (R61). -/
def State.receive (s : State) (l : LaneId) (r : StationRecord) (act : State → State) : State :=
  match (s.lane l).state with
  | .disabled => s
  | .stopped =>
    if !r.wf then s.countLinkError l
    else match r with
      | .heartbeat b d => s.noteBelt l b d
      | .itemBegin _ | .observation _ _ | .itemEnd _ _ | .atGate _ | .confirm _ _ => s.countStale l
  | .active => if !r.wf then s.countLinkError l else (s.restartSilence l).takeRecord l r act
  | .silent =>
    if !r.wf then s.countLinkError l
    else if (s.lane l).sync || recordType r == .heartbeat then (s.enterActive l).takeRecord l r act
    else
      let s₁ := (s.countStale l).restartSilence l
      if (s.lane l).mode = .echo then s₁.echo l r else s₁

end Sys2Proof.Machine
end

