-- ==== Sys2Proof/Machine/Tables.lean ====
section
/-! DEFINITION. The requests that reach the Title Table and the claim list from every side: finding, placing and freeing a record (R19,
R20), raising, satisfying and removing claims (R145 to R150), and the edges of TABLE FULL and CLAIM LIST FULL. -/

namespace Sys2Proof.Machine

/-! The Title Table. -/

/-- R19: the record of a key and its slot; a tombstone counts. -/
def TitleTable.lookup (t : TitleTable) (k : Key) : Option (Nat × TitleRecord) := t.slots.find? fun e => e.2.key == k
/-- The record in a slot; none when the slot is free. -/
def TitleTable.at (t : TitleTable) (n : Nat) : Option TitleRecord := (t.slots.find? fun e => e.1 == n).map (·.2)
/-- The slots with one of them holding the record given, in rising order. -/
def placeSlot (n : Nat) (r : TitleRecord) : List (Nat × TitleRecord) → List (Nat × TitleRecord)
  | [] => [(n, r)]
  | (m, x) :: t => if m < n then (m, x) :: placeSlot n r t else if m = n then (n, r) :: t else (n, r) :: (m, x) :: t
def TitleTable.place (t : TitleTable) (n : Nat) (r : TitleRecord) : TitleTable := { t with slots := placeSlot n r t.slots }
def TitleTable.free (t : TitleTable) (n : Nat) : TitleTable := { t with slots := t.slots.filter fun e => e.1 != n }
/-- The lowest number, from n up, that the rising slots leave out. -/
def lowestFrom : Nat → List (Nat × TitleRecord) → Nat
  | n, [] => n
  | n, (m, _) :: t => if m = n then lowestFrom (n + 1) t else n
/-- R19: the lowest free slot; none when the table is full. -/
def TitleTable.lowestFree (t : TitleTable) : Option Nat :=
  let n := lowestFrom 0 t.slots
  if n < Config.titleSlots then some n else none

/-- R20: a change of the slots gives a TABLE FULL edge when the fullness changes. -/
def State.withTable (s : State) (t : TitleTable) : State :=
  let s₁ := { s with table := t }
  if t.full = s.table.full then s₁ else s₁.deviceNotice .tableFull (edgeOf t.full) .none
/-- A record that stands in a slot takes new fields; no slot is taken or freed. -/
def State.putRecord (s : State) (n : Nat) (r : TitleRecord) : State := { s with table := s.table.place n r }

/-! The claim list. -/

/-- R145: an ISSUES entry of the key that overlaps the range or adjoins it. -/
def ClaimEntry.meets (e : ClaimEntry) (k : Key) (first last : Nat) : Bool :=
  match e.body with
  | .issues a b => e.key == k && decide (a ≤ last + 1 ∧ first ≤ b + 1)
  | .monograph _ => false
/-- The range of an entry; the range given for a MONOGRAPH entry, which has none. -/
def ClaimEntry.range (e : ClaimEntry) (d : Nat × Nat) : Nat × Nat :=
  match e.body with
  | .issues a b => (a, b)
  | .monograph _ => d
/-- R145: the lowest first and the highest last of a range and of every entry it meets. -/
def mergedRange (es : List ClaimEntry) (k : Key) (first last : Nat) : Nat × Nat :=
  es.foldl (fun r e =>
    if e.meets k first last then (min r.1 (e.range r).1, max r.2 (e.range r).2) else r) (first, last)
/-- R145: the oldest entry met takes the merged range; the others met are freed. -/
def absorb (k : Key) (first last : Nat) (merged : Nat × Nat) : List ClaimEntry → List ClaimEntry
  | [] => []
  | e :: t =>
    if e.meets k first last then
      { e with body := .issues merged.1 merged.2 } :: t.filter fun x => !x.meets k first last
    else e :: absorb k first last merged t
/-- R146: an entry appended while there is room; false when the list holds 256. -/
def ClaimList.append (c : ClaimList) (e : ClaimEntry) : ClaimList × Bool :=
  if c.entries.length < Config.claimEntries then ({ c with entries := c.entries ++ [e] }, true) else (c, false)
/-- R145, R146: a raise of kind ISSUES; true is Entered. A refused SLID OUT adds its ordinals to claims-lost. -/
def ClaimList.raiseIssues (c : ClaimList) (k : Key) (first last q : Nat) (cause : ClaimCause) (day : Nat) :
    ClaimList × Bool :=
  if c.entries.any fun e => e.meets k first last then
    ({ c with entries := absorb k first last (mergedRange c.entries k first last) c.entries }, true)
  else
    let out := c.append ⟨k, .issues first last, q, cause, day⟩
    if out.2 then out
    else ({ c with lost := if cause = .slidOut then satAdd c.lost (last - first + 1) else c.lost }, false)
/-- R147: a raise of kind MONOGRAPH does not merge. -/
def ClaimList.raiseMonograph (c : ClaimList) (k : Key) (missing q day : Nat) : ClaimList × Bool :=
  c.append ⟨k, .monograph missing, q, .overdue, day⟩

/-- R148: the answers to a satisfaction. -/
inductive SatisfyAnswer where
  | trimmed | interior | notFound
deriving DecidableEq, Repr

/-- R148: an entry of the key whose range holds the ordinal. -/
def ClaimEntry.covers (e : ClaimEntry) (k : Key) (m : Nat) : Bool :=
  match e.body with
  | .issues a b => e.key == k && decide (a ≤ m ∧ m ≤ b)
  | .monograph _ => false
/-- R148: the entry that holds the ordinal is trimmed at its end, removed when it holds it alone, or left. -/
def satisfyEntries (k : Key) (m : Nat) : List ClaimEntry → List ClaimEntry × SatisfyAnswer
  | [] => ([], .notFound)
  | e :: t =>
    if e.covers k m then
      let r := e.range (m, m)
      if r.1 = m ∧ r.2 = m then (t, .trimmed)
      else if r.1 = m then ({ e with body := .issues (m + 1) r.2 } :: t, .trimmed)
      else if r.2 = m then ({ e with body := .issues r.1 (m - 1) } :: t, .trimmed)
      else (e :: t, .interior)
    else
      let out := satisfyEntries k m t
      (e :: out.1, out.2)
def ClaimList.satisfy (c : ClaimList) (k : Key) (m : Nat) : ClaimList × SatisfyAnswer :=
  let out := satisfyEntries k m c.entries
  ({ c with entries := out.1 }, out.2)
def ClaimEntry.isMonograph (e : ClaimEntry) : Bool :=
  match e.body with
  | .monograph _ => true
  | .issues _ _ => false
/-- R149: the key's MONOGRAPH entry is removed. -/
def ClaimList.removeMonograph (c : ClaimList) (k : Key) : ClaimList :=
  { c with entries := c.entries.filter fun e => !(e.key == k && e.isMonograph) }
/-- R150: every entry of the key is removed. -/
def ClaimList.removeKey (c : ClaimList) (k : Key) : ClaimList :=
  { c with entries := c.entries.filter fun e => e.key != k }

/-- R156: a request to the claim list gives a CLAIM LIST FULL edge when the fullness changes; the detail is the count after it. -/
def State.withClaims (s : State) (c : ClaimList) : State :=
  let s₁ := { s with claims := c }
  if c.full = s.claims.full then s₁
  else s₁.deviceNotice .claimListFull (edgeOf c.full) (.count c.entries.length)

/-- R54: the two indications an arrival gathers. -/
structure Indications where
  satisfied : Bool
  claimed : Bool
deriving DecidableEq, Repr

def Indications.none : Indications := ⟨false, false⟩

/-- R149: the monograph claim of a record is satisfied: its entry goes when LISTED, and the indication follows the claim state, which
becomes NONE. -/
def State.satisfyMonograph (s : State) (k : Key) (before : ClaimState) : State × Indications :=
  match before with
  | .listed => (s.withClaims (s.claims.removeMonograph k), ⟨true, false⟩)
  | .taken => (s, ⟨false, true⟩)
  | .owed | .none => (s, .none)

end Sys2Proof.Machine
end

