-- ==== Sys2Proof/Machine/Claims.lean ====
section
/-! DEFINITION. The commands of the claim list (chapter 8): TAKE CLAIMS, SET GRACE and READ CLAIM STATUS. -/

namespace Sys2Proof.Machine

/-- R153: the record of a MONOGRAPH entry that is taken has claim state TAKEN; an ISSUES entry changes no record. -/
def State.markTaken (s : State) (e : ClaimEntry) : State :=
  match e.body, s.table.lookup e.key with
  | .monograph _, some (n, r) =>
    match r.body with
    | .monograph m => s.putRecord n { r with body := .monograph { m with claim := .taken } }
    | .serial _ => s
  | _, _ => s
/-- R153: TAKE CLAIMS. -/
def State.runTakeClaims (s : State) (n : Half) : State × ReplyBody :=
  if n.toNat < 1 ∨ 16 < n.toNat then (s, refuse .invalid)
  else
    let taken := s.claims.entries.take n.toNat
    let left := s.claims.entries.drop n.toNat
    let s₁ := (taken.foldl State.markTaken s).withClaims { s.claims with entries := left }
    (s₁, .done (.claims taken left.length))
/-- TAKE CLAIMS (R153). -/
def execTakeClaims (tag : Byte) (body : Body Half) (s : State) : Result :=
  s.command 0x2C#8 tag body fun n s => s.runTakeClaims n

/-- R154: SET GRACE. -/
def State.runSetGrace (s : State) (d : Half) : State × ReplyBody :=
  let grace := clamp 0 365 d.toNat
  ({ s with claims := { s.claims with grace := grace } }, .done (.grace s.claims.grace grace))
/-- SET GRACE (R154). -/
def execSetGrace (tag : Byte) (body : Body Half) (s : State) : Result :=
  s.command 0x2D#8 tag body fun d s => s.runSetGrace d

/-- R155: what READ CLAIM STATUS gives. -/
def ClaimList.status (c : ClaimList) : ClaimStatus where
  count := c.entries.length
  lost := c.lost
  full := c.full
  grace := c.grace
  monographs := c.entries.countP ClaimEntry.isMonograph
  issues := c.entries.countP fun e => !e.isMonograph
  oldestDay := c.entries.head?.map (·.day)
/-- READ CLAIM STATUS (R155). -/
def execReadClaimStatus (tag : Byte) (body : Body Unit) (s : State) : Result :=
  s.command 0x2E#8 tag body fun _ s => (s, .done (.claimStatus s.claims.status))

end Sys2Proof.Machine
end

