-- ==== Sys2Proof/Machine/Consignments.lean ====
section
/-! DEFINITION. The consignment unit (chapter 7): opening, membership and counting, slips, and its two commands. -/

namespace Sys2Proof.Machine

/-- R130: the number after a number; from 65535 the counter goes on to 1. -/
def nextConsignment (n : Nat) : Nat := if n = 65535 then 1 else n + 1

/-- R132: a header slip opens a consignment, with a reserved item slot, or finds none and opens nothing. -/
def State.openConsignment (s : State) (l : LaneId) (c : SlipContent) : State × SlipAction :=
  if s.report.itemRoom then
    let n := s.consign.nextNumber
    let s₁ := s.onReport ReportUnit.reserveItem
    let s₂ := s₁.setConsignment l
      (some ⟨n, c.publisher, c.declared, 0, 0, 0, 0, 0, s.table.today, decide ((s.lane l).mode = .dry)⟩)
    ({ s₂ with consign := { s₂.consign with nextNumber := nextConsignment n } }, .opened n)
  else (s, .notOpened)
/-- R135: a trailer that finds no consignment open. -/
def State.strayTrailer (s : State) (l : LaneId) : State :=
  { s with consign := { s.consign with stray := s.consign.stray.set l.val (bump s.consign.stray[l]) l.isLt } }

/-- R133: an item admitted while a consignment is open is a member and is counted. -/
def State.joinConsignment (s : State) (l : LaneId) : State × Option Nat :=
  match s.consignment l with
  | none => (s, none)
  | some c => (s.setConsignment l (some { c with counted := bumpCount c.counted }), some c.number)

/-- R134: what a member's decision changes in its consignment's counts. -/
def Consignment.countReason (c : Consignment) (normal : Bool) (r : Reason) : Consignment :=
  match r with
  | .matched => if normal then { c with matched := bumpCount c.matched } else c
  | .surplus => if normal then { c with surplus := bumpCount c.surplus } else c
  | .unannounced => if normal then { c with unannounced := bumpCount c.unannounced } else c
  | .checkFail => if normal then { c with checkFails := bumpCount c.checkFails } else c
  | .slip | .slipHeader | .slipTrailer => { c with counted := c.counted - 1 }
  | .withdrawn | .noIdentifier | .conflict | .enumerationError | .enumerationSuspect | .lateIssue | .noAccession
  | .late | .incomplete | .disabled | .laneStopped | .restarted => c
/-- R134: the counts change when the consignment is open and the item is a member of it. -/
def State.countMember (s : State) (l : LaneId) (number : Option Nat) (normal : Bool) (r : Reason) : State :=
  match s.consignment l with
  | none => s
  | some c => if number = some c.number then s.setConsignment l (some (c.countReason normal r)) else s

/-- R131: what a slip does, by the decision's reason and the lane's open consignment. -/
def State.slipAction (s : State) (l : LaneId) (r : Reason) (c : SlipContent) : State × SlipAction :=
  match r with
  | .slipHeader => (s.closeConsignment l .unterminated).openConsignment l c
  | .slipTrailer =>
    match s.consignment l with
    | none => (s.strayTrailer l, .noConsignment)
    | some o =>
      let cause := if c.publisher = o.publisher then .trailer else .trailerMismatch
      (s.closeConsignment l cause, .closed o.number cause)
  | _ => (s, .plain)

/-- R138: CLOSE CONSIGNMENT. -/
def State.runCloseConsignment (s : State) (lane : Byte) : State × ReplyBody :=
  s.withLane lane fun l =>
    match s.consignment l with
    | none => (s, refuse .badState)
    | some c => (s.closeConsignment l .command, .done (.consignmentClosed c c.overDeclared))
/-- CLOSE CONSIGNMENT (R138). -/
def execCloseConsignment (tag : Byte) (body : Body Byte) (s : State) : Result :=
  s.command 0x28#8 tag body fun lane s => s.runCloseConsignment lane

/-- R139: READ CONSIGNMENT. -/
def State.runReadConsignment (s : State) (lane : Byte) : State × ReplyBody :=
  s.withLane lane fun l =>
    (s, .done (.consignment l ((s.consignment l).map fun c => (c, c.overDeclared)) s.consign.stray[l]
      s.consign.nextNumber))
/-- READ CONSIGNMENT (R139). -/
def execReadConsignment (tag : Byte) (body : Body Byte) (s : State) : Result :=
  s.command 0x29#8 tag body fun lane s => s.runReadConsignment lane

end Sys2Proof.Machine
end

