-- ==== Sys2Proof/Machine/Serial.lean ====
section
/-! DEFINITION. The arithmetic of serial runs (chapter 3): ordinals (R38 to R41), the run window (R42 to R44), and the seven steps of an
arrival (R45 to R54), settled first and committed only where R45 says so. -/

namespace Sys2Proof.Machine

/-- R39: the first ordinal of an enumeration (R38); none is ENUMERATION ERROR. -/
def SerialPart.ordinal (p : SerialPart) (e : Enumeration) : Option Nat :=
  if e.span.toNat < 1 ∨ 4 < e.span.toNat then none
  else if p.p = 0 then some e.issue.toNat
  else if e.volume.toNat < p.vb ∨ e.issue.toNat < 1 ∨ p.p < e.issue.toNat then none
  else some ((e.volume.toNat - p.vb) * p.p + (e.issue.toNat - 1))
/-- R41: the first ordinal lies more than 256 above h, or above w − 1 while h is absent. -/
def SerialPart.suspect (p : SerialPart) (n : Nat) : Bool :=
  match p.h with
  | some h => decide (h + Config.suspectLimit < n)
  | none => decide (p.w + Config.suspectLimit < n + 1)
/-- R40: the ordinals an item of span s covers. -/
def coveredBy (n span : Nat) : List Nat := List.range' n span

/-! The window. -/

/-- The cell of an ordinal; an ordinal outside the window has none, and is read as count 0 and flag clear (R42, R47). -/
def SerialPart.cell (p : SerialPart) (x : Nat) : Cell := if x < p.w then ⟨0, false⟩ else p.cells.getD (x - p.w) ⟨0, false⟩
def SerialPart.setCell (p : SerialPart) (x : Nat) (c : Cell) : SerialPart :=
  if x < p.w then p else { p with cells := p.cells.set (x - p.w) c }
/-- R42: the window moved up to a base: cells that stay keep their counts and flags, new ones enter with count 0 and flag clear. -/
def SerialPart.rebase (p : SerialPart) (w : Nat) : SerialPart :=
  { p with w := w, cells := (List.range' w Config.windowSize).map p.cell }
/-- R24, R57: 64 cells of count 0 and flag clear. -/
def clearCells : List Cell := List.replicate Config.windowSize ⟨0, false⟩
/-- R42: a cell is complete when its count is Q or more. -/
def Cell.complete (c : Cell) (q : Nat) : Bool := decide (q ≤ c.count)
/-- R47, R50, R152: an ordinal that is incomplete and whose flag is clear is to be claimed. -/
def SerialPart.claimable (p : SerialPart) (q : Nat) (x : Nat) : Bool := !(p.cell x).complete q && !(p.cell x).claimed
/-- R51: the base advanced past complete cells. -/
def SerialPart.advance (p : SerialPart) (q : Nat) : SerialPart :=
  p.rebase (p.w + (p.cells.takeWhile fun c => c.complete q).length)
/-- R44: the flags of every cell of a range set. -/
def SerialPart.flagRange (p : SerialPart) (first last : Nat) : SerialPart :=
  (List.range' first (last + 1 - first)).foldl (fun p x => p.setCell x { p.cell x with claimed := true }) p
/-- R47, R50, R152: rising ordinals gathered into maximal runs of consecutive ones. -/
def runs : List Nat → List (Nat × Nat)
  | [] => []
  | x :: t => match runs t with
    | [] => [(x, x)]
    | (a, b) :: r => if a = x + 1 then (x, b) :: r else (x, x) :: (a, b) :: r

/-! The result (steps 1 to 3 of R45, settled from the record as found). -/

/-- R45, R52: the results of an arrival. -/
inductive ArrivalResult where
  | late
  | matched (k : Nat)
  | surplus (k : Nat)
deriving DecidableEq, Repr

/-- R46, R48, R52: LATE ISSUE when every covered ordinal is behind; else k is the count, after marking, of the first that is not. -/
def SerialPart.settle (p : SerialPart) (q n span : Nat) : ArrivalResult :=
  match (coveredBy n span).find? fun x => decide (p.w ≤ x) with
  | none => .late
  | some x =>
    let k := min ((p.cell x).count + 1) Config.cellMax
    if k ≤ q then .matched k else .surplus k

/-! The commit. -/

/-- What the steps of an arrival thread: the part (claim list and notices), the serial part and the indications. -/
structure ArrivalStep where
  state : State
  part : SerialPart
  seen : Indications

/-- R54: one satisfaction; for a flagged cell, Not found gives CLAIMED. -/
def ArrivalStep.satisfy (a : ArrivalStep) (k : Key) (flagged : Bool) (m : Nat) : ArrivalStep :=
  let out := a.state.claims.satisfy k m
  { a with
    state := a.state.withClaims out.1
    seen := match out.2 with
      | .trimmed => { a.seen with satisfied := true }
      | .interior => { a.seen with claimed := true }
      | .notFound => { a.seen with claimed := a.seen.claimed || flagged } }
/-- R53: one raise; an entered GAP or OVERDUE range has its flags set, a SLID OUT range has left the window. -/
def ArrivalStep.raise (a : ArrivalStep) (k : Key) (q : Nat) (cause : ClaimCause) (r : Nat × Nat) : ArrivalStep :=
  let out := a.state.claims.raiseIssues k r.1 r.2 q cause a.state.table.today
  { a with
    state := a.state.withClaims out.1
    part := if out.2 && cause != .slidOut then a.part.flagRange r.1 r.2 else a.part }
/-- R47: the slide, when the last ordinal lies above the window. -/
def ArrivalStep.slide (a : ArrivalStep) (k : Key) (q last : Nat) : ArrivalStep :=
  if a.part.w + Config.windowSize ≤ last then
    let w := last + 1 - Config.windowSize
    let leaving := runs ((List.range' a.part.w (w - a.part.w)).filter (a.part.claimable q))
    let a₁ := leaving.foldl (fun a r => a.raise k q .slidOut r) a
    { a₁ with part := a₁.part.rebase w }
  else a
/-- R48: one covered ordinal marked; a flagged cell that reaches Q asks for satisfaction. -/
def ArrivalStep.mark (k : Key) (q : Nat) (a : ArrivalStep) (x : Nat) : ArrivalStep :=
  let c := a.part.cell x
  let a₁ := { a with part := a.part.setCell x { c with count := min (c.count + 1) Config.cellMax } }
  if c.claimed && c.count + 1 == q then a₁.satisfy k true x else a₁
/-- R49: the highest received ordinal. -/
def SerialPart.received (p : SerialPart) (last : Nat) : SerialPart :=
  { p with h := some (match p.h with
    | some h => max h last
    | none => last) }
/-- R50: the gaps more than G behind the highest received. -/
def SerialPart.gaps (p : SerialPart) (q : Nat) : List (Nat × Nat) :=
  match p.h with
  | none => []
  | some h => runs ((List.range' p.w (h + 1 - p.w)).filter fun x => p.claimable q x && decide (x + p.gapLag < h))
/-- R45: the seven steps of a committed arrival, but for the last arrival day, which stands in the record. -/
def ArrivalStep.commit (a : ArrivalStep) (k : Key) (q n span : Nat) : ArrivalStep :=
  let w := a.part.w
  let last := n + span - 1
  let behind := (coveredBy n span).filter fun x => decide (x < w)
  let live := (coveredBy n span).filter fun x => decide (w ≤ x)
  let a₁ := behind.foldl (fun a m => a.satisfy k false m) a
  if live.isEmpty then a₁
  else
    let a₂ := live.foldl (ArrivalStep.mark k q) (a₁.slide k q last)
    let a₃ := { a₂ with part := a₂.part.received last }
    let a₄ := (a₃.part.gaps q).foldl (fun a r => a.raise k q .gap r) a₃
    { a₄ with part := a₄.part.advance q }

/-! Requests of one arrival (R32). -/

/-- What the Title Table answers the decision unit (R32, R52). The result stands as a reason; publisher is absent when no record was
found. -/
structure Answer where
  reason : Reason
  cls : ItemClass
  copy : Option Nat
  range : Option (Nat × Nat)
  publisher : Option Nat
  seen : Indications
deriving DecidableEq, Repr

/-- R16: plan[k]; k lies within the plan in every run (notes/assumptions/16.md). -/
def TitleRecord.planClass (r : TitleRecord) (k : Nat) : ItemClass :=
  match r.plan[k - 1]? with
  | some c => c.cls
  | none => .query
/-- The answer to a copy of ordinal k: MATCHED within Q, SURPLUS above it. -/
def TitleRecord.copyAnswer (r : TitleRecord) (k : Nat) (range : Option (Nat × Nat)) : Answer :=
  if k ≤ r.q then ⟨.matched, r.planClass k, some k, range, some r.publisher, .none⟩
  else ⟨.surplus, .return_, some k, range, some r.publisher, .none⟩
/-- R32, R45: the arrival is committed in a NORMAL lane, unless it is MATCHED and no number is available. -/
def commits (normal available : Bool) (reason : Reason) : Bool := normal && (reason != .matched || available)

/-- R33: the commit of a monograph arrival. -/
def State.commitMonograph (s : State) (slot : Nat) (r : TitleRecord) (m : MonographPart) : State × Indications :=
  let c := min (m.copies + 1) Config.copiesMax
  if r.q ≤ c then
    let out := s.satisfyMonograph r.key m.claim
    (out.1.putRecord slot
      { r with status := .complete, lastArrival := some s.table.today, body := .monograph { m with copies := c, claim := .none } },
      out.2)
  else
    (s.putRecord slot { r with lastArrival := some s.table.today, body := .monograph { m with copies := c } }, .none)
/-- R45, R52: the commit of a serial arrival, with the last arrival day of its seventh step. -/
def State.commitSerial (s : State) (slot : Nat) (r : TitleRecord) (p : SerialPart) (n span : Nat) : State × Indications :=
  let a := (ArrivalStep.mk s p .none).commit r.key r.q n span
  (a.state.putRecord slot { r with lastArrival := some s.table.today, body := .serial a.part }, a.seen)
/-- R32: an answer, committed when it is one that commits. -/
def State.commitIf (s : State) (normal available : Bool) (a : Answer) (commit : State × Indications) : State × Answer :=
  if commits normal available a.reason then (commit.1, { a with seen := commit.2 }) else (s, a)
/-- R39, R41, R45: the request against a SERIAL record. -/
def State.serialArrival (s : State) (slot : Nat) (r : TitleRecord) (p : SerialPart) (e : Option Enumeration)
    (normal available : Bool) : State × Answer :=
  match e.bind fun e => (p.ordinal e).map fun n => (n, e.span.toNat) with
  | none => (s, ⟨.enumerationError, .query, none, none, some r.publisher, .none⟩)
  | some (n, span) =>
    let range := some (n, n + span - 1)
    if p.suspect n then (s, ⟨.enumerationSuspect, .query, none, range, some r.publisher, .none⟩)
    else
      let a := match p.settle r.q n span with
        | .late => ⟨.lateIssue, .serials, none, range, some r.publisher, .none⟩
        | .matched k | .surplus k => r.copyAnswer k range
      s.commitIf normal available a (s.commitSerial slot r p n span)
/-- R32: the decision unit's one request for an item. -/
def State.arrival (s : State) (k : Key) (e : Option Enumeration) (normal available : Bool) : State × Answer :=
  match s.table.lookup k with
  | none => (s, ⟨.unannounced, .query, none, none, none, .none⟩)
  | some (slot, r) =>
    if r.status = .withdrawn then (s, ⟨.withdrawn, .return_, none, none, some r.publisher, .none⟩)
    else match r.body with
      | .monograph m => s.commitIf normal available (r.copyAnswer (m.copies + 1) none) (s.commitMonograph slot r m)
      | .serial p => s.serialArrival slot r p e normal available

end Sys2Proof.Machine
end

