-- ==== Sys2Proof/Machine/Decisions.lean ====
section
/-! DEFINITION. The decision unit (chapter 6) and the identification it begins with (chapter 1): the choice of a key (R10 to R12), the
course of a decision (R108), the accession counter, the desk and the outlet, and its three commands. -/

namespace Sys2Proof.Machine

/-! Identification. -/

/-- R8: the judgement of an IDENT observation at the end of a reading. -/
def HeldObservation.judged : HeldObservation → HeldObservation
  | .ident i _ => .ident i (judge i)
  | .weight g => .weight g
  | .size h w d => .size h w d
  | .medium m => .medium m
/-- The IDENT observations held, in the order they joined. -/
def identsOf (os : List HeldObservation) : List Ident :=
  os.filterMap fun o => match o with
    | .ident i _ => some i
    | .weight _ | .size _ _ _ | .medium _ => none
/-- R9: the key of an identifier that is valid and has one. -/
def Ident.key? (i : Ident) : Option Key :=
  match identValue i.scheme i.text with
  | some (.key k) => some k
  | some (.slip _) | none => none
/-- R6: the content of a valid slip. -/
def Ident.slip? (i : Ident) : Option SlipContent :=
  match identValue i.scheme i.text with
  | some (.slip c) => some c
  | some (.key _) | none => none

/-- R10 to R13: what the identification hands on. -/
inductive Choice where
  | slip (c : SlipContent)
  | key (k : Key) (e : Option Enumeration)
  | failed (r : Reason)
deriving DecidableEq, Repr

/-- R12: the enumeration of the first identifier with the chosen key that carries one. -/
def enumerationFor (k : Key) (is : List Ident) : Option Enumeration :=
  is.findSome? fun i => if Ident.key? i = some k then i.enumeration else none
/-- R10: keys of one scheme: all equal, or CONFLICT. -/
def chooseKey (is : List Ident) : List Key → Choice
  | [] => .failed .noIdentifier
  | k :: t => if t.all fun x => x == k then .key k (enumerationFor k is) else .failed .conflict
/-- R10, R11: SLIP first, then SERIAL, BOOK and LOCAL; the values of the winning scheme must agree. R10 defines no value of a
slip: the model compares the whole content (kind, publisher code and declared count), so that two valid trailer slips of one publisher that
differ only in their count positions, which R6 disregards, are a CONFLICT (DESIGN CHOICE; notes/assumptions/25.md). -/
def choose (is : List Ident) : Choice :=
  let keys := is.filterMap Ident.key?
  let of (c : KeyScheme) := keys.filter fun k => k.scheme == c
  match is.filterMap Ident.slip? with
  | c :: t => if t.all fun x => x == c then .slip c else .failed .conflict
  | [] =>
    if !(of .serial).isEmpty then chooseKey is (of .serial)
    else if !(of .book).isEmpty then chooseKey is (of .book)
    else if !(of .localNum).isEmpty then chooseKey is (of .localNum)
    else .failed (if is.isEmpty then .noIdentifier else .checkFail)

/-! The course of a decision. -/

/-- R110: the reason of a slip, by the lane's slip detection and the slip's kind. -/
def slipReason (d : SlipDetection) (trailer : Bool) : Reason :=
  match d, trailer with
  | .off, _ => .slip
  | .header, false => .slipHeader
  | .header, true => .slip
  | .headerAndTrailer, false => .slipHeader
  | .headerAndTrailer, true => .slipTrailer

/-- R117: the counter after it has issued its next number. -/
def DecisionUnit.issue (d : DecisionUnit) : DecisionUnit × Option Nat :=
  match d.next with
  | some n => ({ d with next := some (n + 1), last := some n }, some n)
  | none => (d, none)

/-- The decision before its desk and outlet: what steps 1 to 5 of R108 settle. -/
structure Draft where
  answer : Answer
  key : Option Key
  accession : Option Nat
  slip : Option SlipContent
deriving DecidableEq, Repr

/-- R118: a MATCHED answer with no number available is turned to NO ACCESSION. -/
def Answer.turned (a : Answer) (available : Bool) : Answer :=
  if a.reason = .matched ∧ available = false then { a with reason := .noAccession, cls := .query } else a
/-- R112 to R117: the decision of an item that yields a key. A DRY lane's request carries a number as available and issues none. -/
def State.decideKey (s : State) (k : Key) (e : Option Enumeration) (normal : Bool) : State × Draft :=
  let available := if normal then s.decision.available else true
  let out := s.arrival k e normal available
  let a := out.2.turned available
  if normal ∧ a.reason = .matched then
    let d := out.1.decision.issue
    ({ out.1 with decision := d.1 }, ⟨a, some k, d.2, none⟩)
  else (out.1, ⟨a, some k, none, none⟩)
/-- R110, R111: a class and a reason with nothing found. -/
def plainAnswer (r : Reason) (c : ItemClass) : Answer := ⟨r, c, none, none, none, .none⟩
/-- R108, steps 1 to 5. -/
def State.identify (s : State) (l : LaneId) (is : List Ident) : State × Draft :=
  match choose is with
  | .slip c => (s, ⟨plainAnswer (slipReason (s.lane l).config.slip c.trailer) .runout, none, none, some c⟩)
  | .failed r => (s, ⟨plainAnswer r .query, none, none, none⟩)
  | .key k e => s.decideKey k e (decide ((s.lane l).mode = .normal))
/-- R121, R131, R134: the consignment unit is told the reason; a slip's membership is settled before it acts. -/
def State.informConsignment (s : State) (l : LaneId) (number : Option Nat) (d : Draft) : State × SlipAction :=
  let s₁ := s.countMember l number (decide ((s.lane l).mode = .normal)) d.answer.reason
  match d.slip with
  | some c => s₁.slipAction l d.answer.reason c
  | none => (s₁, .plain)
/-- R122: the publisher code for steering: the open consignment's, else the record's, else 0. -/
def State.steeringCode (s : State) (l : LaneId) (a : Answer) : Nat :=
  match s.consignment l with
  | some c => c.publisher
  | none => a.publisher.getD 0
/-- R122: the desk of a publisher code. -/
def DecisionUnit.desk (d : DecisionUnit) (p : Nat) : Fin 4 := d.steering[p % 64]'(Nat.mod_lt p (by decide))
/-- R122, R123, R109: the decision whole. -/
def State.drawDecision (s : State) (l : LaneId) (d : Draft) (action : SlipAction) : Decision :=
  let desk := if d.answer.cls = .query then some (s.decision.desk (s.steeringCode l d.answer)) else none
  { cls := d.answer.cls
    desk := desk
    outlet := (s.lane l).config.outlets.outlet d.answer.cls desk
    reason := some d.answer.reason
    key := d.key
    copy := d.answer.copy
    range := d.answer.range
    accession := d.accession
    dry := decide ((s.lane l).mode = .dry)
    satisfied := d.answer.seen.satisfied
    claimed := d.answer.seen.claimed
    notOpened := action == .notOpened }
/-- R90, R108: the READING item becomes DECIDED, with its judgements and its decision. -/
def Item.settled (i : Item) (os : List HeldObservation) (d : Decision) : Item :=
  { i with state := .decided, observations := os, decision := some d }
/-- A change of the READING item of a lane; no other item is touched. -/
def Lane.onReading (v : Lane) (f : Item → Item) : Lane :=
  { v with queue := v.queue.map fun i => if i.state = .reading then f i else i }
/-- R118, R124: the exhaustion notice flag is set by the first NO ACCESSION decision, which raises ACCESSION EXHAUSTED. -/
def State.exhaustion (s : State) (l : LaneId) (sq : Seq) : State :=
  if s.decision.exhaustNotice then s
  else
    ({ s with decision := { s.decision with exhaustNotice := true } } : State).deviceNotice .accessionExhausted .event
      (.laneItem l sq)
/-- R124, R140: the counts and the one notice a decision raises. -/
def State.raiseDecision (s : State) (l : LaneId) (sq : Seq) (idents : Nat) (d : Draft) (action : SlipAction) : State :=
  match d.slip with
  | some c => s.laneNotice l .slipSeen .event (.slip sq c action)
  | none =>
    match d.answer.reason with
    | .checkFail =>
      (s.onCounters l fun c => { c with checkFails := bump c.checkFails }).laneNotice l .checkFail .event
        (.checkFail sq idents)
    | .noAccession => s.exhaustion l sq
    | _ => s
/-- R108: the decision unit takes an item of a NORMAL or DRY lane whole. -/
def State.decideItem (s : State) (l : LaneId) (i : Item) : State :=
  let os := i.observations.map HeldObservation.judged
  let is := identsOf os
  let out := s.identify l is
  let told := out.1.informConsignment l i.consignment out.2
  let d := told.1.drawDecision l out.2 told.2
  let s₁ := told.1.onLane l fun v =>
    { v.onReading fun i => i.settled os d with counters := { v.counters with decided := bump v.counters.decided } }
  (s₁.raiseDecision l i.sq is.length out.2 told.2).settleReport

/-! Commands. -/

/-- R126: SET ACCESSION BASE. -/
def State.runSetAccessionBase (s : State) (b : Quad) : State × ReplyBody :=
  if b.toNat < 1 ∨ Config.lastAccession < b.toNat then (s, refuse .invalid)
  else if b.toNat ≤ s.decision.last.getD 0 then (s, refuse .low)
  else
    ({ s with decision := { s.decision with baseSet := true, next := some b.toNat } },
      .done (.accessionBase s.decision.next b.toNat))
/-- SET ACCESSION BASE (R126). -/
def execSetAccessionBase (tag : Byte) (body : Body Quad) (s : State) : Result :=
  s.command 0x20#8 tag body fun b s => s.runSetAccessionBase b

/-- READ ACCESSION (R127). -/
def execReadAccession (tag : Byte) (body : Body Unit) (s : State) : Result :=
  s.command 0x21#8 tag body fun _ s =>
    (s, .done (.accession s.decision.baseSet s.decision.next s.decision.last s.decision.exhaustNotice))

/-- R128: entries f to f + n − 1 take the desks given. -/
def DecisionUnit.steer (d : DecisionUnit) (first : Nat) (desks : List (Fin 4)) : DecisionUnit :=
  { d with
    steering := Vector.ofFn fun i =>
      if first ≤ i.val then desks.getD (i.val - first) d.steering[i] else d.steering[i] }
/-- R128: SET STEERING. -/
def State.runSetSteering (s : State) (f : SteeringFields) : State × ReplyBody :=
  match desksOf f.desks with
  | none => (s, refuse .invalid)
  | some ds =>
    if 63 < f.first.toNat ∨ 64 < f.count.toNat ∨ 64 < f.first.toNat + f.count.toNat ∨ ds.length ≠ f.count.toNat then
      (s, refuse .invalid)
    else
      let d := s.decision.steer f.first.toNat ds
      ({ s with decision := d }, .done (.steering d.steering))
/-- SET STEERING (R128). -/
def execSetSteering (tag : Byte) (body : Body SteeringFields) (s : State) : Result :=
  s.command 0x22#8 tag body fun f s => s.runSetSteering f

end Sys2Proof.Machine
end

