-- ==== Sys2Proof/Machine/Engine.lean ====
section
/-! DEFINITION. The table engine (chapter 9): acceptance, the examination of one slot by each operation, completion, ABORT and ENGINE
STATUS. -/

namespace Sys2Proof.Machine

/-- R162: the operation ends: the engine is IDLE and its completion record is filled into its slot. -/
def State.complete (s : State) (e : EngineContext) (t : Termination) (next : Nat) (hit : Option Hit) : State :=
  let result := match e.op with
    | .find _ => OperationResult.find hit
    | .sweep => .sweep e.raised e.owed
    | .purge => .purge e.freed
  ({ s with engine := none } : State).onReport fun r => r.fillCompletion ⟨t, e.start, next, e.examined, result⟩
/-- R162: the termination of a walk that reaches slot 8192. -/
def Operation.walked : Operation → Termination
  | .find _ => .notSatisfied
  | .sweep | .purge => .normal
/-- R161: the engine goes on from an examination, or completes when it leaves the current slot at 8192. -/
def State.goOn (s : State) (e : EngineContext) : State :=
  if Config.titleSlots ≤ e.current then s.complete e e.op.walked Config.titleSlots none
  else { s with engine := some e }

/-! Starting an operation. -/

/-- R160: the context of an operation that has just been accepted. -/
def newContext (op : Operation) (start : Nat) : EngineContext := ⟨op, start, start, 0, 0, 0, 0⟩
/-- R160, checks 2 to 4, and the acceptance. A walk with no slot before it completes at once (R164). -/
def State.accept (s : State) (op : Operation) (start : Nat) : State × ReplyBody :=
  match s.engine with
  | some e => (s, .refused .busy (.operationInProgress e.op.kind))
  | none =>
    if op = .sweep ∧ s.table.day = none then (s, .refused .notReady (.notReady false true false))
    else if !s.report.nonItemRoom then (s, .refused .busy .noReportSpace)
    else
      let s₁ := s.onReport fun r => { r with reservedNonItem := r.reservedNonItem + 1 }
      (s₁.goOn (newContext op start), .accepted (.operation op.kind start))

/-- R163: the range of the value each field compares with. -/
def FindField.limit : FindField → Nat
  | .copiesOutstanding => 4
  | .dueDay => 65535
  | .publisherCode => Config.maxPublisher
  | .lastArrivalDay => 65535
/-- FIND (R160, R163). -/
def execFind (tag : Byte) (body : Body FindFields) (s : State) : Result :=
  s.command 0x30#8 tag body fun f s =>
    if FindField.limit f.field < f.value.toNat ∨ Config.titleSlots < f.start.toNat then (s, refuse .invalid)
    else s.accept (.find f) f.start.toNat
/-- SWEEP (R160, R165). -/
def execSweep (tag : Byte) (body : Body Unit) (s : State) : Result :=
  s.command 0x31#8 tag body fun _ s => s.accept .sweep 0
/-- PURGE (R160, R166). -/
def execPurge (tag : Byte) (body : Body Unit) (s : State) : Result :=
  s.command 0x32#8 tag body fun _ s => s.accept .purge 0

/-- R167: ABORT. -/
def State.runAbort (s : State) : State × ReplyBody :=
  match s.engine with
  | none => (s, refuse .badState)
  | some e => (s.complete e .aborted e.current none, .done (.operation e.op.kind e.current))
/-- ABORT (R167). -/
def execAbort (tag : Byte) (body : Body Unit) (s : State) : Result :=
  s.command 0x33#8 tag body fun _ s => s.runAbort
/-- ENGINE STATUS (R168). -/
def execEngineStatus (tag : Byte) (body : Body Unit) (s : State) : Result :=
  s.command 0x34#8 tag body fun _ s => (s, .done (.engine s.engine))

/-! Examinations. -/

/-- R161: the context after an examination: one slot on, and one record more when the slot held one. -/
def EngineContext.pass (e : EngineContext) (held : Bool) : EngineContext :=
  { e with current := e.current + 1, examined := e.examined + held.toNat }

/-- R163: the value of a record for a field; a field that is absent does not match. -/
def TitleRecord.fieldValue (r : TitleRecord) : FindField → Option Nat
  | .copiesOutstanding => match r.body with
    | .monograph m => some (r.q - m.copies)
    | .serial _ => some 0
  | .dueDay => match r.body with
    | .monograph m => m.due
    | .serial _ => none
  | .publisherCode => some r.publisher
  | .lastArrivalDay => r.lastArrival
/-- R163: how a record's value must stand to the command's value. -/
def FindCompare.holds (c : FindCompare) (record value : Nat) : Bool :=
  match c with
  | .lessOrEqual => decide (record ≤ value)
  | .equal => decide (record = value)
  | .greaterOrEqual => decide (value ≤ record)
/-- R163, R164: whether a FIND stops at a record. -/
def FindFields.matches_ (f : FindFields) (r : TitleRecord) : Bool :=
  (f.withdrawn || r.status != .withdrawn) &&
  match r.fieldValue f.field with
  | some v => FindCompare.holds f.compare v f.value.toNat
  | none => false
/-- R164: one slot of a FIND. -/
def State.examineFind (s : State) (e : EngineContext) (f : FindFields) : State :=
  match s.table.at e.current with
  | none => s.goOn (e.pass false)
  | some r =>
    if FindFields.matches_ f r then
      s.complete (e.pass true) .normal (e.current + 1) (some ⟨e.current, r.key, r.kind, r.status⟩)
    else s.goOn (e.pass true)
/-- FIND EXAMINATION (R161, R164): an engine that runs no FIND examines nothing. -/
def execFindExamination (s : State) : Result :=
  match s.engine with
  | some e =>
    match e.op with
    | .find f => (s.examineFind e f).done
    | .sweep | .purge => s.done
  | none => s.done

/-- R151: the overdue criterion of a monograph. -/
def State.monographOverdue (s : State) (r : TitleRecord) (m : MonographPart) : Bool :=
  decide (r.status = .expected) &&
  (match m.due with
    | some d => decide (d + s.claims.grace < s.table.today)
    | none => false) &&
  decide (m.claim = .none ∨ m.claim = .owed)
/-- R147, R151: the raise of an overdue monograph; the answer sets its claim state and is counted. -/
def State.sweepMonograph (s : State) (e : EngineContext) (r : TitleRecord) (m : MonographPart) : State × EngineContext :=
  let out := s.claims.raiseMonograph r.key (r.q - m.copies) r.q s.table.today
  let claim := if out.2 then .listed else .owed
  ((s.withClaims out.1).putRecord e.current { r with body := .monograph { m with claim := claim } },
    if out.2 then { e with raised := e.raised + 1 } else { e with owed := e.owed + 1 })
/-- R152: the overdue criterion of a serial. -/
def State.serialOverdue (s : State) (r : TitleRecord) (p : SerialPart) : Bool :=
  decide (r.status = .expected ∧ 0 < p.dayLag ∧ p.dayLag < s.table.today - r.lastArrival.getD r.announceDay)
/-- R152: the runs of an overdue serial that are raised. -/
def SerialPart.overdueRuns (p : SerialPart) (q : Nat) : List (Nat × Nat) :=
  let e := match p.h with
    | some h => h + 1
    | none => p.w
  let last := min e (p.w + Config.windowSize - 1)
  runs ((List.range' p.w (last + 1 - p.w)).filter (p.claimable q))
/-- R146, R165: one raise of an overdue serial, its answer counted. -/
def sweepRaise (k : Key) (q : Nat) (a : ArrivalStep × EngineContext) (r : Nat × Nat) : ArrivalStep × EngineContext :=
  let entered := (a.1.state.claims.raiseIssues k r.1 r.2 q .overdue a.1.state.table.today).2
  (a.1.raise k q .overdue r,
    if entered then { a.2 with raised := a.2.raised + 1 } else { a.2 with owed := a.2.owed + 1 })
/-- R152: the raises of an overdue serial. -/
def State.sweepSerial (s : State) (e : EngineContext) (r : TitleRecord) (p : SerialPart) : State × EngineContext :=
  let a := (p.overdueRuns r.q).foldl (sweepRaise r.key r.q) (⟨s, p, .none⟩, e)
  (a.1.state.putRecord e.current { r with body := .serial a.1.part }, a.2)
/-- R165: one slot of a SWEEP. -/
def State.examineSweep (s : State) (e : EngineContext) : State :=
  match s.table.at e.current with
  | none => s.goOn (e.pass false)
  | some r =>
    let out := match r.body with
      | .monograph m => if s.monographOverdue r m then s.sweepMonograph e r m else (s, e)
      | .serial p => if s.serialOverdue r p then s.sweepSerial e r p else (s, e)
    out.1.goOn (out.2.pass true)
/-- SWEEP EXAMINATION (R161, R165): an engine that runs no SWEEP examines nothing. -/
def execSweepExamination (s : State) : Result :=
  match s.engine with
  | some e =>
    match e.op with
    | .sweep => (s.examineSweep e).done
    | .find _ | .purge => s.done
  | none => s.done

/-- R166: one slot of a PURGE. -/
def State.examinePurge (s : State) (e : EngineContext) : State :=
  match s.table.at e.current with
  | none => s.goOn (e.pass false)
  | some r =>
    if r.status = .withdrawn then
      (s.withTable (s.table.free e.current)).goOn { e.pass true with freed := e.freed + 1 }
    else s.goOn (e.pass true)
/-- PURGE EXAMINATION (R161, R166): an engine that runs no PURGE examines nothing. -/
def execPurgeExamination (s : State) : Result :=
  match s.engine with
  | some e =>
    match e.op with
    | .purge => (s.examinePurge e).done
    | .find _ | .sweep => s.done
  | none => s.done

end Sys2Proof.Machine
end

