-- ==== Sys2Proof/Machine/Lanes.lean ====
section
/-! DEFINITION. The commands of the lane interfaces (chapter 4): CONFIGURE LANE, ENABLE LANE, DISABLE LANE, READ LANE and CLEAR DIVERTER
FAULT, and the lane's part of RESTART (R82). -/

namespace Sys2Proof.Machine

/-! CONFIGURE LANE. -/

/-- R77: the notice enables alone are given. -/
def ConfigureFields.enablesOnly (f : ConfigureFields) : Bool :=
  f.depth.isNone && f.outlets.isNone && f.slip.isNone && f.silence.isNone && f.confirm.isNone && f.enables.isSome
/-- R77: at least one field is given. -/
def ConfigureFields.given (f : ConfigureFields) : Bool :=
  f.depth.isSome || f.outlets.isSome || f.slip.isSome || f.silence.isSome || f.confirm.isSome || f.enables.isSome
/-- R75: each field given is in its range, or is a clamped one. -/
def ConfigureFields.inRange (f : ConfigureFields) : Bool :=
  (match f.outlets with
    | none => true
    | some o => (outletMapOf o).isSome) &&
  match f.enables with
    | none => true
    | some ps => ps.all fun p => laneCondition p.condition
/-- R75, R77: every field given set, clamped where it is clamped; a field left out keeps its value. -/
def LaneConfig.apply (c : LaneConfig) (f : ConfigureFields) : LaneConfig where
  depth := (f.depth.map depthOf).getD c.depth
  outlets := (f.outlets.bind outletMapOf).getD c.outlets
  slip := f.slip.getD c.slip
  silence := (f.silence.map fun b => clamp 1 10 b.toNat).getD c.silence
  confirm := (f.confirm.map fun b => clamp 100 2000 b.toNat).getD c.confirm
  enables := (f.enables.map laneEnablesOf).getD c.enables
/-- R77: CONFIGURE LANE. -/
def State.runConfigureLane (s : State) (f : ConfigureFields) : State × ReplyBody :=
  s.withLane f.lane fun l =>
    let v := s.lane l
    if !ConfigureFields.given f || !ConfigureFields.inRange f then (s, refuse .invalid)
    else if v.state ≠ .disabled ∧ ConfigureFields.enablesOnly f = false then (s, refuse .badState)
    else
      let c := v.config.apply f
      (s.onLane l fun v => { v with config := c, configured := v.configured || decide (v.state = .disabled) },
        .done (.laneConfig c))
/-- CONFIGURE LANE (R77). -/
def execConfigureLane (tag : Byte) (body : Body ConfigureFields) (s : State) : Result :=
  s.command 0x18#8 tag body fun f s => s.runConfigureLane f

/-! ENABLE LANE and DISABLE LANE. -/

/-- R65: the prerequisites missing for the lane's mode: configuration, day, accession base. -/
def State.missingFor (s : State) (v : Lane) : Bool × Bool × Bool :=
  (!v.configured, accounts v.mode && s.table.day.isNone, decide (v.mode = .normal) && !s.decision.baseSet)
/-- R65, R174: the lane in service: SILENT, its tracking cleared, its timer started, its test unit prepared, and HOLD sent. -/
def Lane.enable (v : Lane) : Lane :=
  ({ v with
      state := .silent
      sync := false
      expected := none
      cause := .none
      violation := none
      silenceTimer := some v.config.silence
      hold := true
      rx := []
      test := if accounts v.mode then v.test else .reset } : Lane).produce .hold
/-- R65: ENABLE LANE. -/
def State.runEnableLane (s : State) (lane : Byte) : State × ReplyBody :=
  s.withLane lane fun l =>
    let v := s.lane l
    let missing := s.missingFor v
    if v.state ≠ .disabled then (s, refuse .badState)
    else if missing.1 || missing.2.1 || missing.2.2 then
      (s, .refused .notReady (.notReady missing.1 missing.2.1 missing.2.2))
    else ((s.onLane l Lane.enable).laneNotice l .silent .rising .none, .done (.laneMode v.mode))
/-- ENABLE LANE (R65). -/
def execEnableLane (tag : Byte) (body : Body Byte) (s : State) : Result :=
  s.command 0x19#8 tag body fun lane s => s.runEnableLane lane

/-- R78: the falling edge of the state a lane leaves for DISABLED. -/
def State.leavingNotice (s : State) (l : LaneId) (before : LaneState) : State :=
  match before with
  | .silent => s.laneNotice l .silent .falling .none
  | .stopped => s.laneNotice l .stopped .falling .none
  | .active | .disabled => s
/-- R69, R104: a lane in service flushed and DISABLED; records not begun are discarded, then HOLD is sent if the flag was clear. -/
def State.disableLane (s : State) (l : LaneId) (reason : Reason) : State :=
  let s₁ := s.sweepLane l reason
  let s₂ := s₁.onLane l fun v =>
    { v with state := .disabled, sync := false, silenceTimer := none, expected := none, rx := [], outbox := [] }
  (s₂.leavingNotice l (s.lane l).state).reevaluate l
/-- R69: the items a DISABLE LANE flushes or closes. -/
def Lane.itemCount (v : Lane) : Nat :=
  v.queue.length + match v.held with
    | none => 0
    | some _ => 1
/-- R69: DISABLE LANE. -/
def State.runDisableLane (s : State) (lane : Byte) : State × ReplyBody :=
  s.withLane lane fun l =>
    let v := s.lane l
    if v.state = .disabled then (s, .done (.disabled .disabled 0))
    else (s.disableLane l .disabled, .done (.disabled v.state v.itemCount))
/-- DISABLE LANE (R69). -/
def execDisableLane (tag : Byte) (body : Body Byte) (s : State) : Result :=
  s.command 0x1A#8 tag body fun lane s => s.runDisableLane lane

/-! READ LANE and CLEAR DIVERTER FAULT. -/

/-- R79: the standing of a lane. -/
def Lane.view (v : Lane) : LaneView where
  state := v.state
  mode := v.mode
  configured := v.configured
  sync := v.sync
  hold := v.hold
  level := v.level
  occupancy := v.occupancy
  confirmHold := v.held.isSome
  faultLevel := v.faultLevel
  faults := v.faults
  expected := v.expected
  cause := v.cause
  violation := v.violation
  belt := v.belt
  diverter := v.diverter
  config := v.config
  counters := v.counters
/-- R79: READ LANE. -/
def State.runReadLane (s : State) (lane : Byte) : State × ReplyBody :=
  s.withLane lane fun l => (s, .done (.lane (s.lane l).view))
/-- READ LANE (R79). -/
def execReadLane (tag : Byte) (body : Body Byte) (s : State) : Result :=
  s.command 0x1B#8 tag body fun lane s => s.runReadLane lane

/-- R80: the count set to 0 and the level cleared, with its falling edge when it was set. -/
def State.clearFault (s : State) (l : LaneId) : State :=
  let s₁ := s.onLane l fun v => { v with faults := 0, faultLevel := false }
  if (s.lane l).faultLevel then s₁.laneNotice l .diverterFault .falling .none else s₁
/-- R80: CLEAR DIVERTER FAULT. -/
def State.runClearDiverterFault (s : State) (lane : Byte) : State × ReplyBody :=
  s.withLane lane fun l => (s.clearFault l, .done (.diverter (s.lane l).faultLevel (s.lane l).faults))
/-- CLEAR DIVERTER FAULT (R80). -/
def execClearDiverterFault (tag : Byte) (body : Body Byte) (s : State) : Result :=
  s.command 0x1C#8 tag body fun lane s => s.runClearDiverterFault lane

/-! RESTART. -/

/-- R82, R174: the RESTART values of a lane; mode, configured flag and configuration are kept. -/
def Lane.restarted (v : Lane) : Lane :=
  { v with
    state := .disabled
    sync := false
    silenceTimer := none
    expected := none
    cause := .none
    violation := none
    belt := none
    diverter := none
    hold := true
    faults := 0
    counters := .zero
    test := .reset }
/-- R142: the stray trailer count set to 0. -/
def State.clearStray (s : State) (l : LaneId) : State :=
  { s with consign := { s.consign with stray := s.consign.stray.set l.val 0 l.isLt } }
/-- R82, R191: one lane restarted: flushed when it is not DISABLED, its RESTART values taken, its DIVERTER FAULT level fallen. -/
def State.restartLane (s : State) (l : LaneId) : State :=
  let s₁ := if (s.lane l).state = .disabled then s else s.disableLane l .restarted
  ((s₁.onLane l Lane.restarted).clearStray l).clearFault l

end Sys2Proof.Machine
end

