-- ==== Sys2Proof/Machine/Device.lean ====
section
/-! DEFINITION. The part as a whole (chapter 11): power-on, RESTART and CLEAR (R191, R192), errors of the host line (R181, R182), the ends of
its transmissions (R184, R187), the hold timer (R186), and the device commands (R188 to R190). -/

namespace Sys2Proof.Machine

/-! Starting. -/

/-- R192: every block at its power-on values; the commands that wait outside the part are not its state. -/
def State.poweredOn (s : State) : State := { State.blank with pending := s.pending }
/-- POWER ON (R192): the STARTED notice is asked, and its batch is the first frame sent. -/
def execPowerOn (s : State) : Result := (s.poweredOn.ask .device .started .event (.started .powerOn)).done

/-- R192: a batch in transmission at a CLEAR is sent to its end, and its records are no longer in the queue. -/
def Line.afterClear : Line → Line
  | .batch tag rs _ => .batch tag rs 0
  | .reply r => .reply r
  | .idle => .idle
/-- R192: every block as at power-on, except the receive framer, the reply queue and the link counters; what is being sent is sent to its
end (R63, R184). -/
def State.cleared (s : State) : State :=
  { State.blank with
    pending := s.pending
    host := { s.host with line := s.host.line.afterClear }
    lanes := Vector.ofFn fun i => { Lane.reset with sending := s.lanes[i].sending } }
/-- CLEAR (R192). -/
def execClear (tag : Byte) (body : Body Unit) (s : State) : Result :=
  s.command 0x09#8 tag body fun _ s => (s.cleared.ask .device .started .event (.started .clear), .done .empty)

/-- R170: a RUNNING engine is ended as ABORT ends it. -/
def State.endEngine (s : State) : State :=
  match s.engine with
  | none => s
  | some e => s.complete e .aborted e.current none
/-- The lanes in their order. -/
def allLanes : List LaneId := [0, 1, 2, 3, 4, 5, 6, 7]
/-- R191: the three parts of RESTART, in order. -/
def State.runRestart (s : State) : State × ReplyBody :=
  (((allLanes.foldl State.restartLane s).endEngine).ask .device .started .event (.started .restart), .done .empty)
/-- RESTART (R191). -/
def execRestart (tag : Byte) (body : Body Unit) (s : State) : Result :=
  s.command 0x08#8 tag body fun _ s => s.runRestart

/-! The host line. -/

/-- HOST LENGTH ERROR (R181). -/
def execHostLengthError (s : State) : Result := (s.onLink fun c => { c with lengthErrors := bump c.lengthErrors }).done
/-- HOST CRC ERROR (R181). -/
def execHostCrcError (s : State) : Result := (s.onLink fun c => { c with crcErrors := bump c.crcErrors }).done
/-- COMMAND DROPPED (R182): a complete frame that finds 8 replies waiting; with fewer waiting no frame is dropped and nothing happens
(notes/assumptions/3.md). -/
def execCommandDropped (s : State) : Result :=
  if Config.replyQueue ≤ s.host.replies.length then
    (s.onLink fun c => { c with framesTaken := bump c.framesTaken, commandsDropped := bump c.commandsDropped }).done
  else s.done
/-- UNKNOWN COMMAND (R182); a code that names a command is not unknown, and nothing happens (notes/assumptions/3.md). -/
def execUnknownCommand (code tag : Byte) (s : State) : Result :=
  if commandCodes.contains code.toNat then s.done
  else s.takeFrame code tag fun s =>
    (s.onLink fun c => { c with unknownCodes := bump c.unknownCodes }, refuse .unknown)

/-- REPLY SENT (R184). -/
def execReplySent (s : State) : Result :=
  match s.host.line with
  | .reply _ =>
    ({ s with host := { s.host with
        line := .idle, counters := { s.host.counters with repliesSent := bump s.host.counters.repliesSent } } } : State).done
  | .idle | .batch _ _ _ => s.done
/-- R186, R187: the records of a batch leave the front of the queue, and the send point with the record it marks. -/
def ReportUnit.leave (r : ReportUnit) (n : Nat) : ReportUnit :=
  { r with
    filled := r.filled.drop n
    sendPoint := match r.sendPoint with
      | some i => if i < n then none else some (i - n)
      | none => none
    batchNumber := r.batchNumber + 1#8 }
/-- BATCH SENT (R187): the records leave, and the report space is settled again. -/
def execBatchSent (s : State) : Result :=
  match s.host.line with
  | .batch _ rs n =>
    let s₁ := (s.onLink fun c =>
      { c with batchesSent := bump c.batchesSent, recordsSent := satAdd c.recordsSent rs.length }).onReport fun r => r.leave n
    (({ s₁ with host := { s₁.host with line := .idle } } : State).settleReport).done
  | .idle | .reply _ => s.done
/-- HOLD TIMER EXPIRY (R186). -/
def execHoldTimerExpiry (s : State) : Result :=
  match s.report.holdTimer with
  | some _ => (s.onReport ReportUnit.sendAll).done
  | none => s.done

/-! Device commands. -/

/-- IDENTIFY (R190). -/
def execIdentify (tag : Byte) (body : Body Unit) (s : State) : Result :=
  s.command 0x01#8 tag body fun _ s => (s, .done .identity)
/-- READ COUNTERS (R190). -/
def execReadCounters (tag : Byte) (body : Body Unit) (s : State) : Result :=
  s.command 0x02#8 tag body fun _ s => (s, .done (.counters s.host.counters (s.lanes.toList.map (·.counters))))
/-- R189: SET NOTICES. -/
def State.runSetNotices (s : State) (ps : List EnablePair) : State × ReplyBody :=
  if ps.all fun p => deviceCondition p.condition then
    (s.onReport fun r => { r with enables := deviceEnablesOf ps }, .done (.deviceEnables (deviceEnablesOf ps)))
  else (s, refuse .invalid)
/-- SET NOTICES (R189). -/
def execSetNotices (tag : Byte) (body : Body (List EnablePair)) (s : State) : Result :=
  s.command 0x03#8 tag body fun ps s => s.runSetNotices ps
/-- R188: SET REPORT HOLD; a running timer keeps the time it started with. -/
def State.runSetReportHold (s : State) (ms : Half) : State × ReplyBody :=
  let t := clamp 0 1000 ms.toNat
  (s.onReport fun r => { r with holdTime := t }, .done (.holdTime t))
/-- SET REPORT HOLD (R188). -/
def execSetReportHold (tag : Byte) (body : Body Half) (s : State) : Result :=
  s.command 0x04#8 tag body fun ms s => s.runSetReportHold ms
/-- HOLD REPORTS (R188). -/
def execHoldReports (tag : Byte) (body : Body Unit) (s : State) : Result :=
  s.command 0x05#8 tag body fun _ s => (s.onReport fun r => { r with reportsHeld := true }, .done .empty)
/-- RELEASE REPORTS (R188). -/
def execReleaseReports (tag : Byte) (body : Body Unit) (s : State) : Result :=
  s.command 0x06#8 tag body fun _ s => (s.onReport fun r => { r with reportsHeld := false }, .done .empty)
/-- R188: FLUSH REPORTS. -/
def State.runFlushReports (s : State) : State × ReplyBody :=
  let s₁ := s.onReport ReportUnit.sendAll
  (s₁, .done (.due s₁.report.due))
/-- FLUSH REPORTS (R188). -/
def execFlushReports (tag : Byte) (body : Body Unit) (s : State) : Result :=
  s.command 0x07#8 tag body fun _ s => s.runFlushReports

end Sys2Proof.Machine
end

