-- ==== Sys2Proof/Machine/Gate.lean ====
section
/-! DEFINITION. At the gate (chapter 5): the pairing of an AT GATE (R93 to R98, R102), the routing of a DRY lane (R172), CONFIRM and the
confirm timer (R99 to R101). -/

namespace Sys2Proof.Machine

/-- A DIVERT with the RUNOUT outlet in place of a decided outlet, counted as run-out (R81). -/
def State.sendRunOut (s : State) (l : LaneId) (sq : Seq) : State :=
  (s.onCounters l fun c => { c with runOut := bump c.runOut }).send l (.divert sq (s.lane l).config.outlets.runout)
/-- R96: one item passed over at the gate. -/
def State.missItem (l : LaneId) (s : State) (i : Item) : State :=
  (s.onCounters l fun c => { c with missing := bump c.missing }).endItem l i .missing
    (i.decidedOutlet (s.lane l).config.outlets) (i.reasonOr .incomplete) .unconfirmed false
/-- R95: a READING head is LATE. -/
def State.lateItem (s : State) (l : LaneId) (i : Item) : State :=
  let s₁ := (s.onCounters l fun c => { c with late := bump c.late }).sendRunOut l i.sq
  s₁.endItem l i .runOut (s.lane l).config.outlets.runout .late .unconfirmed false
/-- R102: a DECIDED head under the DIVERTER FAULT level. -/
def State.faultItem (s : State) (l : LaneId) (i : Item) : State :=
  (s.sendRunOut l i.sq).endItem l i .runOut (s.lane l).config.outlets.runout (i.reasonOr .incomplete) .unconfirmed true
/-- R99: the item enters the confirm hold, and its window opens at the confirm timeout in force. -/
def Lane.openWindow (v : Lane) (i : Item) (outlet : Fin 8) : Lane :=
  { v with held := some ⟨{ i with state := .confirming }, outlet, v.config.confirm⟩ }
/-- R94, R172: a DECIDED head is diverted: to its outlet in a NORMAL or TEST lane, to RUNOUT in a DRY lane. -/
def State.divertItem (s : State) (l : LaneId) (i : Item) : State :=
  let m := (s.lane l).config.outlets
  if (s.lane l).mode = .dry then (s.sendRunOut l i.sq).onLane l fun v => v.openWindow i m.runout
  else
    ((s.onCounters l fun c => { c with diverted := bump c.diverted }).send l (.divert i.sq (i.decidedOutlet m))).onLane l
      fun v => v.openWindow i (i.decidedOutlet m)
/-- R94, R95, R102: the named item, now the head. -/
def State.pairHead (s : State) (l : LaneId) (i : Item) : State :=
  if i.state = .reading then s.lateItem l i
  else if (s.lane l).faultLevel then s.faultItem l i
  else s.divertItem l i
/-- R93 to R96: an AT GATE that names an item of the queue. -/
def State.pairGate (s : State) (l : LaneId) (sq : Seq) : State :=
  let s₁ := s.closeWindow l .noConfirm
  let ahead := (s.lane l).queue.takeWhile fun i => i.sq != sq
  let rest := (s.lane l).queue.dropWhile fun i => i.sq != sq
  let s₂ := (ahead.foldl (State.missItem l) s₁).onLane l fun v => { v with queue := rest.tail }
  let s₃ := match rest with
    | [] => s₂
    | i :: _ => s₂.pairHead l i
  (s₃.levelNotice l (s.lane l).level).reevaluate l
/-- R93, R98: a PHANTOM. -/
def State.phantom (s : State) (l : LaneId) (sq : Seq) : State :=
  let s₁ := ((s.closeWindow l .noConfirm).onCounters l fun c => { c with phantom := bump c.phantom }).sendRunOut l sq
  s₁.laneNotice l .phantom .event (.item sq)
/-- R72, R93: an AT GATE taken in ACTIVE. -/
def State.gate (s : State) (l : LaneId) (sq : Seq) : State :=
  let v := s.lane l
  if v.holds sq then s.pairGate l sq
  else if v.stale sq then s.countStale l
  else if v.queue.isEmpty then s.phantom l sq
  else s.violate l .unknownItem .atGate sq
/-- AT GATE (R66, R68, R72, R93 to R98). -/
def execAtGate (l : LaneId) (sq : Seq) (s : State) : Result :=
  (s.receive l (.atGate sq) fun s => s.gate l sq).done

/-- R100: a CONFIRM taken in ACTIVE. -/
def State.confirmItem (s : State) (l : LaneId) (sq : Seq) (outlet : Byte) : State :=
  match (s.lane l).held with
  | none => s.countStale l
  | some h =>
    if h.item.sq = sq then s.closeWindow l (if outletByte h.outlet = outlet then .confirmed else .misrouted)
    else s.countStale l
/-- CONFIRM (R66, R68, R100). -/
def execConfirm (l : LaneId) (sq : Seq) (outlet : Byte) (s : State) : Result :=
  (s.receive l (.confirm sq outlet) fun s => s.confirmItem l sq outlet).done

/-- CONFIRM TIMER EXPIRY (R100): the window closes NO CONFIRM. -/
def execConfirmTimerExpiry (l : LaneId) (s : State) : Result :=
  match (s.lane l).held with
  | none => s.done
  | some _ => ((s.closeWindow l .noConfirm).feedTest l).done

end Sys2Proof.Machine
end

