-- ==== Sys2Proof/Machine/TestModes.lean ====
section
/-! DEFINITION. The lane test modes (chapter 10): the comparison of a TEST lane and its sync state, and the commands SET LANE MODE,
INJECT ERROR and READ TEST. ECHO and the TEST ITEMs stand in Ops.lean; DRY routing in Gate.lean. -/

namespace Sys2Proof.Machine

/-- R177: the results of a comparison. -/
inductive TestResult where
  | correct | error | injectedDetected
deriving DecidableEq, Repr

/-- R13: the identifier offered for the comparison: the first LOCAL IDENT observation. -/
def offered (is : List Ident) : Option Ident := is.find? fun i => i.scheme == Scheme.localNum.code
/-- R177: the result of comparing an outstanding entry with the offered identifier. -/
def Outstanding.compare (o : Outstanding) (i : Option Ident) : TestResult :=
  match i with
  | none => .error
  | some i =>
    if o.injected then if judge i = .invalid then .injectedDetected else .error
    else if judge i = .valid ∧ i.text = testIdentifier o.value then .correct else .error
/-- R177: one result counted. -/
def TestUnit.count (t : TestUnit) : TestResult → TestUnit
  | .correct => { t with correct := bump t.correct }
  | .error => { t with errors := bump t.errors }
  | .injectedDetected => { t with injectedDetected := bump t.injectedDetected }
/-- R178: the runs and the sync state after a result. -/
def TestUnit.follow (t : TestUnit) : TestResult → TestUnit
  | .correct | .injectedDetected =>
    let run := min (t.correctRun + 1) Config.syncGain
    { t with errorRun := 0, correctRun := run, inSync := t.inSync || run == Config.syncGain }
  | .error =>
    let run := min (t.errorRun + 1) Config.syncLoss
    { t with correctRun := 0, errorRun := run, inSync := t.inSync && run != Config.syncLoss }
/-- R177: the oldest outstanding entry compared and removed; with none, an ERROR that is unsolicited as well. Answers the value
compared. -/
def TestUnit.take (t : TestUnit) (i : Option Ident) : TestUnit × Option (BitVec 15) :=
  match t.outstanding with
  | [] => (({ t with unsolicited := bump t.unsolicited }.count .error).follow .error, none)
  | o :: rest =>
    let r := o.compare i
    (({ t with outstanding := rest }.count r).follow r, some o.value)
/-- R176: the decision of a TEST item: class RUNOUT and the RUNOUT outlet, and nothing else. -/
def testDecision (m : OutletMap) : Decision where
  cls := .runout
  desk := none
  outlet := m.runout
  reason := none
  key := none
  copy := none
  range := none
  accession := none
  dry := false
  satisfied := false
  claimed := false
  notOpened := false
def valueDetail : Option (BitVec 15) → Detail
  | some v => .testValue v
  | none => .none
/-- R90, R176 to R178: the ITEM END of a TEST lane. -/
def State.testItemEnd (s : State) (l : LaneId) (i : Item) : State :=
  let os := i.observations.map HeldObservation.judged
  let v := s.lane l
  let out := v.test.take (offered (identsOf os))
  let d := testDecision v.config.outlets
  let s₁ := s.onLane l fun v =>
    { v.onReading fun i => i.settled os d with
      test := out.1
      counters := { v.counters with decided := bump v.counters.decided } }
  if out.1.inSync = v.test.inSync then s₁
  else s₁.laneNotice l .testSync (edgeOf out.1.inSync) (valueDetail out.2)

/-! Commands. -/

/-- R171: SET LANE MODE. -/
def State.runSetLaneMode (s : State) (f : LaneModeFields) : State × ReplyBody :=
  s.withLane f.lane fun l =>
    if (s.lane l).state = .disabled then
      (s.onLane l fun v => { v with mode := f.mode }, .done (.modes (s.lane l).mode f.mode))
    else (s, refuse .badState)
/-- SET LANE MODE (R171). -/
def execSetLaneMode (tag : Byte) (body : Body LaneModeFields) (s : State) : Result :=
  s.command 0x1D#8 tag body fun f s => s.runSetLaneMode f

/-- R179: INJECT ERROR. -/
def State.runInjectError (s : State) (lane : Byte) : State × ReplyBody :=
  s.withLane lane fun l =>
    if (s.lane l).mode = .test ∧ ((s.lane l).state = .silent ∨ (s.lane l).state = .active) then
      (s.onLane l fun v => { v with test := { v.test with inject := true } }, .done .empty)
    else (s, refuse .badState)
/-- INJECT ERROR (R179). -/
def execInjectError (tag : Byte) (body : Body Byte) (s : State) : Result :=
  s.command 0x1E#8 tag body fun lane s => s.runInjectError lane

/-- R180: READ TEST. -/
def State.runReadTest (s : State) (lane : Byte) : State × ReplyBody :=
  s.withLane lane fun l => (s, .done (.test (s.lane l).mode (s.lane l).test))
/-- READ TEST (R180). -/
def execReadTest (tag : Byte) (body : Body Byte) (s : State) : Result :=
  s.command 0x1F#8 tag body fun lane s => s.runReadTest lane

end Sys2Proof.Machine
end

