-- ==== Sys2Proof/Machine/Intake.lean ====
section
/-! DEFINITION. The records and events of a lane up to the end of a reading: link errors (R60, R61), HEARTBEAT (R74), ITEM BEGIN with
admission (R71, R86), OBSERVATION (R89), ITEM END (R90), the silence timer (R67), the news of report space (R87) and the end of a
record's sending (R63). -/

namespace Sys2Proof.Machine

/-- R60, R61, R69: a link error is counted in any enabled state; a DISABLED lane counts nothing. -/
def State.linkError (s : State) (l : LaneId) : State :=
  if (s.lane l).state = .disabled then s else s.countLinkError l
/-- LINK CHECK FAILURE (R60). -/
def execLinkCheckFailure (l : LaneId) (s : State) : Result := (s.linkError l).done
/-- RECORD NOT WELL FORMED (R61). -/
def execRecordNotWellFormed (l : LaneId) (s : State) : Result := (s.linkError l).done

/-- HEARTBEAT (R66, R68, R74). -/
def execHeartbeat (l : LaneId) (b : Belt) (d : Diverter) (s : State) : Result :=
  (s.receive l (.heartbeat b d) fun s => s.noteBelt l b d).done

/-! ITEM BEGIN. -/

/-- R70, R86: a refusal; the expected number becomes s, or stays at it. -/
def State.refuseItem (s : State) (l : LaneId) (sq : Seq) : State :=
  (s.onLane l fun v =>
    { v with counters := { v.counters with refused := bump v.counters.refused }, expected := some sq }).send l (.refuse sq)
/-- R86: a new item record. -/
def newItem (l : LaneId) (sq : Seq) (consignment : Option Nat) (reserved : Bool) : Item :=
  ⟨l, sq, .reading, [], false, consignment, none, reserved⟩
/-- R86, R133: the reservation and the membership of an admission; a TEST lane has neither. -/
def State.reserveAdmission (s : State) (l : LaneId) : State × Option Nat :=
  if accounts (s.lane l).mode then (s.onReport ReportUnit.reserveItem).joinConsignment l else (s, none)
/-- R70, R86, R87, R92: an admission. -/
def State.admitItem (s : State) (l : LaneId) (sq : Seq) : State :=
  let item := s.reserveAdmission l
  let s₁ := (item.1.onLane l fun v =>
    { v with
      counters := { v.counters with admitted := bump v.counters.admitted }
      queue := v.queue ++ [newItem l sq item.2 (accounts v.mode)]
      expected := some (sq + 1#16) }).send l (.admission sq)
  let s₂ := s₁.levelNotice l (s.lane l).level
  (if accounts (s.lane l).mode then s₂.settleReport else s₂).reevaluate l
/-- R71, R86: an ITEM BEGIN taken in ACTIVE. -/
def State.beginItem (s : State) (l : LaneId) (sq : Seq) : State :=
  let v := s.lane l
  if v.readingItem.isSome then s.violate l .beginWhileReading .itemBegin sq
  else if v.expected.isSome ∧ v.expected ≠ some sq then s.violate l .sequenceBreak .itemBegin sq
  else if v.hold ∨ (accounts v.mode ∧ s.report.itemRoom = false) then s.refuseItem l sq
  else s.admitItem l sq
/-- ITEM BEGIN (R66, R68, R71, R86). -/
def execItemBegin (l : LaneId) (sq : Seq) (s : State) : Result :=
  (s.receive l (.itemBegin sq) fun s => s.beginItem l sq).done

/-! OBSERVATION and ITEM END. -/

/-- R8, R83: an observation as it joins a record; an IDENT is UNCHECKED. -/
def heldOf : Observation → HeldObservation
  | .ident i => .ident i .unchecked
  | .weight g => .weight g
  | .size h w d => .size h w d
  | .medium m => .medium m
/-- R89: an observation joins the list, or is dropped when it holds 8. -/
def Item.join (i : Item) (o : Observation) : Item :=
  if i.observations.length < Config.maxObservations then { i with observations := i.observations ++ [heldOf o] }
  else { i with oversize := true }
def State.joinReading (s : State) (l : LaneId) (o : Observation) : State :=
  s.onLane l fun v => v.onReading fun i => i.join o
/-- R72: what an OBSERVATION or ITEM END that names no READING item comes to. -/
def State.misdirected (s : State) (l : LaneId) (type : RecordType) (sq : Seq) : State :=
  if (s.lane l).stale sq then s.countStale l else s.violate l .unknownItem type sq
/-- R72, R89: an OBSERVATION taken in ACTIVE. -/
def State.observe (s : State) (l : LaneId) (sq : Seq) (o : Observation) : State :=
  if (s.lane l).namesReading sq then s.joinReading l o else s.misdirected l .observation sq
/-- OBSERVATION (R66, R68, R72, R89). -/
def execObservation (l : LaneId) (sq : Seq) (o : Observation) (s : State) : Result :=
  (s.receive l (.observation sq o) fun s => s.observe l sq o).done

/-- R90: the READING item, its last observation joined, is decided: compared on a TEST lane, decided on any other. -/
def State.endReading (s : State) (l : LaneId) (o : Option Observation) : State :=
  let s₁ := match o with
    | some o => s.joinReading l o
    | none => s
  match (s₁.lane l).readingItem with
  | some i => if (s₁.lane l).mode = .test then s₁.testItemEnd l i else s₁.decideItem l i
  | none => s₁
/-- R72, R90: an ITEM END taken in ACTIVE. -/
def State.endItemReading (s : State) (l : LaneId) (sq : Seq) (o : Option Observation) : State :=
  if (s.lane l).namesReading sq then s.endReading l o else s.misdirected l .itemEnd sq
/-- ITEM END (R66, R68, R72, R90). -/
def execItemEnd (l : LaneId) (sq : Seq) (o : Option Observation) (s : State) : Result :=
  (s.receive l (.itemEnd sq o) fun s => s.endItemReading l sq o).done

/-! Events of the lane itself. -/

/-- R67: expiry of a running silence timer. -/
def State.silenceExpired (s : State) (l : LaneId) : State :=
  match (s.lane l).silenceTimer, (s.lane l).state with
  | some _, .active =>
    let s₁ := (s.onLane l fun v => { v with state := .silent }).restartSilence l
    (s₁.laneNotice l .silent .rising .none).reevaluate l
  | some _, .silent => s.restartSilence l
  | _, _ => s
/-- SILENCE TIMER EXPIRY (R67). -/
def execSilenceTimerExpiry (l : LaneId) (s : State) : Result := (s.silenceExpired l).done

/-- R87: the oldest news of the report unit reaches the lane, which re-evaluates its hold flag. -/
def State.takeNews (s : State) (l : LaneId) : State :=
  match (s.lane l).news with
  | [] => s
  | b :: t => (s.onLane l fun v => { v with noSpace := b, news := t }).reevaluate l
/-- NO REPORT SPACE NEWS (R87). -/
def execNoReportSpaceNews (l : LaneId) (s : State) : Result := (s.takeNews l).done

/-- R63: a record sent to its end; the next one produced begins. -/
def Lane.sent (v : Lane) : Lane :=
  match v.sending, v.outbox with
  | none, _ => v
  | some _, [] => { v with sending := none }
  | some _, r :: t => { v with sending := some r, outbox := t }
/-- LANE RECORD SENT (R63). -/
def execLaneRecordSent (l : LaneId) (s : State) : Result := (s.onLane l Lane.sent).done

end Sys2Proof.Machine
end

