-- ==== Sys2Proof/Machine/Titles.lean ====
section
/-! DEFINITION. The commands of the Title Table (chapter 2) and SET RUN (R57). -/

namespace Sys2Proof.Machine

/-! ANNOUNCE TITLE. -/

/-- R23, check 6: the ranges of a serial part; P and Vb come in two bytes, so Vb is always in range. -/
def SerialGiven.inRange (g : SerialGiven) : Bool :=
  decide (g.p.toNat ≤ 999 ∧ g.first.toNat ≤ Config.maxOrdinal ∧ (g.gapLag.getD 0).toNat ≤ 15 ∧ (g.dayLag.getD 0).toNat ≤ 365)
/-- R23, checks 2 to 6: a key's scheme against the fields carried. -/
def AnnounceFields.inRange (f : AnnounceFields) (k : Key) : Bool :=
  k.scheme.allows f.kind && decide (1 ≤ f.q.toNat ∧ f.q.toNat ≤ 4) && decide (f.plan.length = f.q.toNat) &&
  (planOf f.plan).isSome && decide (f.publisher.toNat ≤ Config.maxPublisher) &&
  match f.kind, f.serial with
  | .monograph, none => true
  | .monograph, some _ => false
  | .serial, none => false
  | .serial, some g => f.due.isNone && SerialGiven.inRange g
/-- R24: the serial part of a new record. -/
def newSerial (g : SerialGiven) : SerialPart where
  p := g.p.toNat
  vb := g.vb.toNat
  first := g.first.toNat
  w := g.first.toNat
  h := none
  cells := clearCells
  gapLag := (g.gapLag.map (·.toNat)).getD 3
  dayLag := (g.dayLag.map (·.toNat)).getD 0
/-- R24: a new record. -/
def newTitle (f : AnnounceFields) (k : Key) (day : Nat) : TitleRecord where
  key := k
  status := .expected
  publisher := f.publisher.toNat
  q := f.q.toNat
  plan := (planOf f.plan).getD []
  announceDay := day
  lastArrival := none
  body := match f.serial with
    | some g => .serial (newSerial g)
    | none => .monograph ⟨f.due.map (·.toNat), 0, .none⟩
/-- R23 to R25: ANNOUNCE TITLE. -/
def State.runAnnounceTitle (s : State) (f : AnnounceFields) : State × ReplyBody :=
  s.withKey f.key fun k =>
    let r := newTitle f k s.table.today
    if !AnnounceFields.inRange f k then (s, refuse .invalid)
    else match s.table.lookup k with
      | some (n, _) =>
        ((s.putRecord n r).withClaims (s.claims.removeKey k), .done (.announced n .replaced))
      | none =>
        match s.table.lowestFree with
        | some n => (s.withTable (s.table.place n r), .done (.announced n .inserted))
        | none => (s, refuse .full)
/-- ANNOUNCE TITLE (R23). -/
def execAnnounceTitle (tag : Byte) (body : Body AnnounceFields) (s : State) : Result :=
  s.command 0x10#8 tag body fun f s => s.runAnnounceTitle f

/-! AMEND TITLE. -/

/-- R26, check 2: each value given lies in its range, and a new Q comes with a new plan. -/
def AmendFields.inRange (f : AmendFields) : Bool :=
  (match f.q with
    | none => true
    | some q => decide (1 ≤ q.toNat ∧ q.toNat ≤ 4) && f.plan.isSome) &&
  (match f.plan with
    | none => true
    | some p => (planOf p).isSome) &&
  decide ((f.publisher.getD 0).toNat ≤ Config.maxPublisher ∧ (f.gapLag.getD 0).toNat ≤ 15 ∧ (f.dayLag.getD 0).toNat ≤ 365)
/-- R26, check 5: each change applies to the record's kind, and the plan has exactly Q entries. -/
def AmendFields.applies (f : AmendFields) (r : TitleRecord) : Bool :=
  (match r.kind with
    | .monograph => f.gapLag.isNone && f.dayLag.isNone
    | .serial => decide (f.due = .keep)) &&
  match f.plan with
  | none => true
  | some p => decide (p.length = (f.q.map (·.toNat)).getD r.q)
/-- The due day after a change. -/
def DueChange.apply (d : DueChange) (before : Option Nat) : Option Nat :=
  match d with
  | .keep => before
  | .set day => some day.toNat
  | .remove => none
/-- R26: the changes made, before the record is settled. -/
def AmendFields.change (f : AmendFields) (r : TitleRecord) : TitleRecord :=
  { r with
    q := (f.q.map (·.toNat)).getD r.q
    plan := (f.plan.bind planOf).getD r.plan
    publisher := (f.publisher.map (·.toNat)).getD r.publisher
    body := match r.body with
      | .monograph m => .monograph { m with due := DueChange.apply f.due m.due }
      | .serial p => .serial { p with
          gapLag := (f.gapLag.map (·.toNat)).getD p.gapLag
          dayLag := (f.dayLag.map (·.toNat)).getD p.dayLag } }
/-- R27, R28: a record settled after its changes: a monograph against its copies, a serial by the base advance. -/
def State.settleAmended (s : State) (n : Nat) (r : TitleRecord) : State × TitleRecord :=
  match r.body with
  | .monograph m =>
    if r.q ≤ m.copies then
      if r.status = .expected then
        let r' := { r with status := .complete, body := .monograph { m with claim := .none } }
        ((s.satisfyMonograph r.key m.claim).1.putRecord n r', r')
      else (s.putRecord n r, r)
    else
      let r' := { r with status := .expected }
      (s.putRecord n r', r')
  | .serial p =>
    let r' := { r with body := .serial (p.advance r.q) }
    (s.putRecord n r', r')
/-- R26: what the reply shows of a record. -/
def TitleRecord.standing (r : TitleRecord) : Standing where
  status := r.status
  monograph := match r.body with
    | .monograph m => some (m.copies, m.claim)
    | .serial _ => none
/-- R26 to R28: AMEND TITLE. -/
def State.runAmendTitle (s : State) (f : AmendFields) : State × ReplyBody :=
  s.withKey f.key fun k =>
    if !AmendFields.inRange f then (s, refuse .invalid)
    else match s.table.lookup k with
      | none => (s, refuse .notFound)
      | some (n, r) =>
        if r.status = .withdrawn then (s, refuse .badState)
        else if !AmendFields.applies f r then (s, refuse .invalid)
        else
          let out := s.settleAmended n (AmendFields.change f r)
          (out.1, .done (.amended r.standing out.2.standing))
/-- AMEND TITLE (R26). -/
def execAmendTitle (tag : Byte) (body : Body AmendFields) (s : State) : Result :=
  s.command 0x11#8 tag body fun f s => s.runAmendTitle f

/-! WITHDRAW TITLE, READ TITLE and LIST TITLES. -/

/-- R29: the tombstone of a record. -/
def TitleRecord.tombstone (r : TitleRecord) : TitleRecord :=
  { r with
    status := .withdrawn
    body := match r.body with
      | .monograph m => .monograph { m with claim := .none }
      | .serial p => .serial p }
/-- R29: WITHDRAW TITLE. -/
def State.runWithdrawTitle (s : State) (kt : KeyText) : State × ReplyBody :=
  s.withKey kt fun k =>
    match s.table.lookup k with
    | none => (s, refuse .notFound)
    | some (n, r) =>
      if r.status = .withdrawn then (s, .done (.withdrawn n .withdrawn))
      else
        ((s.putRecord n r.tombstone).withClaims (s.claims.removeKey k), .done (.withdrawn n r.status))
/-- WITHDRAW TITLE (R29). -/
def execWithdrawTitle (tag : Byte) (body : Body KeyText) (s : State) : Result :=
  s.command 0x12#8 tag body fun k s => s.runWithdrawTitle k

/-- R30: READ TITLE. -/
def State.runReadTitle (s : State) (kt : KeyText) : State × ReplyBody :=
  s.withKey kt fun k =>
    match s.table.lookup k with
    | none => (s, refuse .notFound)
    | some (n, r) => (s, .done (.title n r))
/-- READ TITLE (R30). -/
def execReadTitle (tag : Byte) (body : Body KeyText) (s : State) : Result :=
  s.command 0x13#8 tag body fun k s => s.runReadTitle k

/-- R31: the entry of a slot. -/
def listEntry (e : Nat × TitleRecord) : ListEntry :=
  ⟨e.1, e.2.key, e.2.kind, e.2.status, decide (e.2.status = .withdrawn)⟩
/-- R31: the records collected from a start slot, up to a count. -/
def TitleTable.collect (t : TitleTable) (start count : Nat) : List (Nat × TitleRecord) :=
  (t.slots.filter fun e => decide (start ≤ e.1)).take count
/-- R31: the slot to continue from: one past the last collected when the count was collected, else the end. -/
def nextSlot (collected : List (Nat × TitleRecord)) (count : Nat) : Nat :=
  match collected.getLast? with
  | some e => if collected.length = count then e.1 + 1 else Config.titleSlots
  | none => Config.titleSlots
/-- R31: LIST TITLES. -/
def State.runListTitles (s : State) (f : ListFields) : State × ReplyBody :=
  if Config.titleSlots < f.start.toNat ∨ f.count.toNat < 1 ∨ 8 < f.count.toNat then (s, refuse .invalid)
  else
    let es := s.table.collect f.start.toNat f.count.toNat
    let next := nextSlot es f.count.toNat
    (s, .done (.titles (es.map listEntry) next (decide (next = Config.titleSlots))))
/-- LIST TITLES (R31). -/
def execListTitles (tag : Byte) (body : Body ListFields) (s : State) : Result :=
  s.command 0x14#8 tag body fun f s => s.runListTitles f

/-! SET DAY and SET RUN. -/

/-- R21: SET DAY. -/
def State.runSetDay (s : State) (d : Half) : State × ReplyBody :=
  ({ s with table := { s.table with day := some d.toNat } }, .done (.day s.table.day d.toNat))
/-- SET DAY (R21). -/
def execSetDay (tag : Byte) (body : Body Half) (s : State) : Result :=
  s.command 0x15#8 tag body fun d s => s.runSetDay d

/-- R57: the window repositioned: every cell cleared and h absent. -/
def SerialPart.reposition (p : SerialPart) (base : Nat) : SerialPart := { p with w := base, h := none, cells := clearCells }
/-- R57: SET RUN. -/
def State.runSetRun (s : State) (f : SetRunFields) : State × ReplyBody :=
  s.withKey f.key fun k =>
    if Config.maxOrdinal < f.base.toNat then (s, refuse .invalid)
    else match s.table.lookup k with
      | none => (s, refuse .notFound)
      | some (n, r) =>
        if r.status = .withdrawn then (s, refuse .badState)
        else match r.body with
          | .monograph _ => (s, refuse .invalid)
          | .serial p =>
            (s.putRecord n { r with body := .serial (p.reposition f.base.toNat) }, .done (.run n p.w p.h f.base.toNat))
/-- SET RUN (R57). -/
def execSetRun (tag : Byte) (body : Body SetRunFields) (s : State) : Result :=
  s.command 0x16#8 tag body fun f s => s.runSetRun f

end Sys2Proof.Machine
end

