-- ==== Sys2Proof/Machine/Dispatch.lean ====
section
/-! DEFINITION. One arm for each command of the table: a direct call of its meaning. -/

namespace Sys2Proof.Machine

/-- The effect of a command on everything but the queue. -/
def exec (i : Instr) (s : State) : Host.Outcome State Fault Refusal :=
  match i with
  | .powerOn => Sys2Proof.Machine.execPowerOn s
  | .hostLengthError => Sys2Proof.Machine.execHostLengthError s
  | .hostCrcError => Sys2Proof.Machine.execHostCrcError s
  | .commandDropped => Sys2Proof.Machine.execCommandDropped s
  | .unknownCommand code tag => Sys2Proof.Machine.execUnknownCommand code tag s
  | .identify tag body => Sys2Proof.Machine.execIdentify tag body s
  | .readCounters tag body => Sys2Proof.Machine.execReadCounters tag body s
  | .setNotices tag body => Sys2Proof.Machine.execSetNotices tag body s
  | .setReportHold tag body => Sys2Proof.Machine.execSetReportHold tag body s
  | .holdReports tag body => Sys2Proof.Machine.execHoldReports tag body s
  | .releaseReports tag body => Sys2Proof.Machine.execReleaseReports tag body s
  | .flushReports tag body => Sys2Proof.Machine.execFlushReports tag body s
  | .restart tag body => Sys2Proof.Machine.execRestart tag body s
  | .clear tag body => Sys2Proof.Machine.execClear tag body s
  | .announceTitle tag body => Sys2Proof.Machine.execAnnounceTitle tag body s
  | .amendTitle tag body => Sys2Proof.Machine.execAmendTitle tag body s
  | .withdrawTitle tag body => Sys2Proof.Machine.execWithdrawTitle tag body s
  | .readTitle tag body => Sys2Proof.Machine.execReadTitle tag body s
  | .listTitles tag body => Sys2Proof.Machine.execListTitles tag body s
  | .setDay tag body => Sys2Proof.Machine.execSetDay tag body s
  | .setRun tag body => Sys2Proof.Machine.execSetRun tag body s
  | .configureLane tag body => Sys2Proof.Machine.execConfigureLane tag body s
  | .enableLane tag body => Sys2Proof.Machine.execEnableLane tag body s
  | .disableLane tag body => Sys2Proof.Machine.execDisableLane tag body s
  | .readLane tag body => Sys2Proof.Machine.execReadLane tag body s
  | .clearDiverterFault tag body => Sys2Proof.Machine.execClearDiverterFault tag body s
  | .setLaneMode tag body => Sys2Proof.Machine.execSetLaneMode tag body s
  | .injectError tag body => Sys2Proof.Machine.execInjectError tag body s
  | .readTest tag body => Sys2Proof.Machine.execReadTest tag body s
  | .setAccessionBase tag body => Sys2Proof.Machine.execSetAccessionBase tag body s
  | .readAccession tag body => Sys2Proof.Machine.execReadAccession tag body s
  | .setSteering tag body => Sys2Proof.Machine.execSetSteering tag body s
  | .closeConsignment tag body => Sys2Proof.Machine.execCloseConsignment tag body s
  | .readConsignment tag body => Sys2Proof.Machine.execReadConsignment tag body s
  | .takeClaims tag body => Sys2Proof.Machine.execTakeClaims tag body s
  | .setGrace tag body => Sys2Proof.Machine.execSetGrace tag body s
  | .readClaimStatus tag body => Sys2Proof.Machine.execReadClaimStatus tag body s
  | .find tag body => Sys2Proof.Machine.execFind tag body s
  | .sweep tag body => Sys2Proof.Machine.execSweep tag body s
  | .purge tag body => Sys2Proof.Machine.execPurge tag body s
  | .abort tag body => Sys2Proof.Machine.execAbort tag body s
  | .engineStatus tag body => Sys2Proof.Machine.execEngineStatus tag body s
  | .replySent => Sys2Proof.Machine.execReplySent s
  | .batchSent => Sys2Proof.Machine.execBatchSent s
  | .holdTimerExpiry => Sys2Proof.Machine.execHoldTimerExpiry s
  | .noReportSpaceNews l => Sys2Proof.Machine.execNoReportSpaceNews l s
  | .linkCheckFailure l => Sys2Proof.Machine.execLinkCheckFailure l s
  | .recordNotWellFormed l => Sys2Proof.Machine.execRecordNotWellFormed l s
  | .heartbeat l b d => Sys2Proof.Machine.execHeartbeat l b d s
  | .itemBegin l sq => Sys2Proof.Machine.execItemBegin l sq s
  | .observation l sq o => Sys2Proof.Machine.execObservation l sq o s
  | .itemEnd l sq o => Sys2Proof.Machine.execItemEnd l sq o s
  | .atGate l sq => Sys2Proof.Machine.execAtGate l sq s
  | .confirm l sq o => Sys2Proof.Machine.execConfirm l sq o s
  | .silenceTimerExpiry l => Sys2Proof.Machine.execSilenceTimerExpiry l s
  | .confirmTimerExpiry l => Sys2Proof.Machine.execConfirmTimerExpiry l s
  | .findExamination => Sys2Proof.Machine.execFindExamination s
  | .sweepExamination => Sys2Proof.Machine.execSweepExamination s
  | .purgeExamination => Sys2Proof.Machine.execPurgeExamination s
  | .laneRecordSent l => Sys2Proof.Machine.execLaneRecordSent l s

end Sys2Proof.Machine
end

