-- ==== Sys2Proof/Machine/Receive.lean ====
section
/-! DEFINITION. The two receivers (R60, R181): bytes that arrive on the host link or on a lane link become commands of the table, which are
put at the tail of the queue. They stand beside step: the table has no row for the arrival of a byte (notes/assumptions/6.md). -/

namespace Sys2Proof.Machine

/-- R181: bytes from the host, judged by the framer. -/
def State.receiveHost (s : State) (bytes : List Byte) : State :=
  let buf := s.host.rx ++ bytes
  let out := scanHost buf.length buf
  { s with pending := s.pending ++ out.1.map HostEvent.instr, host := { s.host with rx := out.2 } }
/-- R60, R65, R69: bytes from a station, judged by the lane's receiver; a DISABLED lane keeps none. -/
def State.receiveLane (s : State) (l : LaneId) (bytes : List Byte) : State :=
  if (s.lane l).state = .disabled then s
  else
    let buf := (s.lane l).rx ++ bytes
    let out := scanLane buf.length buf
    let s₁ := s.onLane l fun v => { v with rx := out.2 }
    { s₁ with pending := s₁.pending ++ out.1.map (LaneEvent.instr l) }

end Sys2Proof.Machine
end

