-- ==== Sys2Proof/Safety.lean ====
section
/-! DEFINITION. The words the statements are made of: the effect of a command, with the line then granted; what a command files with the
report unit and asks of the claim list, in order; and the invariants of the part. -/

namespace Sys2Proof.Machine

/-! Outcomes. -/

/-- The command completes: its effect is u, and then the line is granted when it is free (R184; what the grant does is stated by
TransmissionsEnd). So t is u but for what a free line begins to send. -/
def Happens (c : Instr) (s u : State) : Prop := exec c s = .next u.grant
/-- R181, R182: the state with one frame taken and a reply at the tail of the reply queue. -/
def State.answered (s : State) (code tag : Byte) (b : ReplyBody) : State :=
  { s with host := { s.host with
      replies := s.host.replies ++ [⟨code, tag, b⟩]
      counters := { s.host.counters with framesTaken := bump s.host.counters.framesTaken } } }
/-- The command completes: its effect is u, and it gives exactly one reply, with the code and the tag given. -/
def Takes (c : Instr) (s : State) (code tag : Byte) (b : ReplyBody) (u : State) : Prop :=
  Happens c s (u.answered code tag b)
/-- R183: the command is refused and changes nothing. -/
def Refuses (c : Instr) (s : State) (code tag : Byte) (r : RefusalReason) (d : RefusalDetail) : Prop :=
  Takes c s code tag (.refused r d) s
/-- R182: there is room for one more waiting reply, so a command is taken. -/
abbrev State.listens (s : State) : Prop := s.host.replies.length < 8

/-- The code and the tag of the frame of a host command; none for an event. -/
def Instr.frame : Instr → Option (Byte × Byte)
  | .unknownCommand c t => if commandCodes.contains c.toNat then none else some (c, t)
  | .identify t _ => some (0x01#8, t)
  | .readCounters t _ => some (0x02#8, t)
  | .setNotices t _ => some (0x03#8, t)
  | .setReportHold t _ => some (0x04#8, t)
  | .holdReports t _ => some (0x05#8, t)
  | .releaseReports t _ => some (0x06#8, t)
  | .flushReports t _ => some (0x07#8, t)
  | .restart t _ => some (0x08#8, t)
  | .clear t _ => some (0x09#8, t)
  | .announceTitle t _ => some (0x10#8, t)
  | .amendTitle t _ => some (0x11#8, t)
  | .withdrawTitle t _ => some (0x12#8, t)
  | .readTitle t _ => some (0x13#8, t)
  | .listTitles t _ => some (0x14#8, t)
  | .setDay t _ => some (0x15#8, t)
  | .setRun t _ => some (0x16#8, t)
  | .configureLane t _ => some (0x18#8, t)
  | .enableLane t _ => some (0x19#8, t)
  | .disableLane t _ => some (0x1A#8, t)
  | .readLane t _ => some (0x1B#8, t)
  | .clearDiverterFault t _ => some (0x1C#8, t)
  | .setLaneMode t _ => some (0x1D#8, t)
  | .injectError t _ => some (0x1E#8, t)
  | .readTest t _ => some (0x1F#8, t)
  | .setAccessionBase t _ => some (0x20#8, t)
  | .readAccession t _ => some (0x21#8, t)
  | .setSteering t _ => some (0x22#8, t)
  | .closeConsignment t _ => some (0x28#8, t)
  | .readConsignment t _ => some (0x29#8, t)
  | .takeClaims t _ => some (0x2C#8, t)
  | .setGrace t _ => some (0x2D#8, t)
  | .readClaimStatus t _ => some (0x2E#8, t)
  | .find t _ => some (0x30#8, t)
  | .sweep t _ => some (0x31#8, t)
  | .purge t _ => some (0x32#8, t)
  | .abort t _ => some (0x33#8, t)
  | .engineStatus t _ => some (0x34#8, t)
  | .powerOn | .hostLengthError | .hostCrcError | .commandDropped | .replySent | .batchSent | .holdTimerExpiry
  | .noReportSpaceNews _ | .linkCheckFailure _ | .recordNotWellFormed _ | .heartbeat _ _ _ | .itemBegin _ _
  | .observation _ _ _ | .itemEnd _ _ _ | .atGate _ _ | .confirm _ _ _ | .silenceTimerExpiry _ | .confirmTimerExpiry _
  | .findExamination | .sweepExamination | .purgeExamination | .laneRecordSent _ => none
/-- The host command of a code with a malformed body; none for a code that names no command. -/
def malformedCommand (code tag : Byte) : Option Instr :=
  match code.toNat with
  | 0x01 => some (.identify tag .malformed)
  | 0x02 => some (.readCounters tag .malformed)
  | 0x03 => some (.setNotices tag .malformed)
  | 0x04 => some (.setReportHold tag .malformed)
  | 0x05 => some (.holdReports tag .malformed)
  | 0x06 => some (.releaseReports tag .malformed)
  | 0x07 => some (.flushReports tag .malformed)
  | 0x08 => some (.restart tag .malformed)
  | 0x09 => some (.clear tag .malformed)
  | 0x10 => some (.announceTitle tag .malformed)
  | 0x11 => some (.amendTitle tag .malformed)
  | 0x12 => some (.withdrawTitle tag .malformed)
  | 0x13 => some (.readTitle tag .malformed)
  | 0x14 => some (.listTitles tag .malformed)
  | 0x15 => some (.setDay tag .malformed)
  | 0x16 => some (.setRun tag .malformed)
  | 0x18 => some (.configureLane tag .malformed)
  | 0x19 => some (.enableLane tag .malformed)
  | 0x1A => some (.disableLane tag .malformed)
  | 0x1B => some (.readLane tag .malformed)
  | 0x1C => some (.clearDiverterFault tag .malformed)
  | 0x1D => some (.setLaneMode tag .malformed)
  | 0x1E => some (.injectError tag .malformed)
  | 0x1F => some (.readTest tag .malformed)
  | 0x20 => some (.setAccessionBase tag .malformed)
  | 0x21 => some (.readAccession tag .malformed)
  | 0x22 => some (.setSteering tag .malformed)
  | 0x28 => some (.closeConsignment tag .malformed)
  | 0x29 => some (.readConsignment tag .malformed)
  | 0x2C => some (.takeClaims tag .malformed)
  | 0x2D => some (.setGrace tag .malformed)
  | 0x2E => some (.readClaimStatus tag .malformed)
  | 0x30 => some (.find tag .malformed)
  | 0x31 => some (.sweep tag .malformed)
  | 0x32 => some (.purge tag .malformed)
  | 0x33 => some (.abort tag .malformed)
  | 0x34 => some (.engineStatus tag .malformed)
  | _ => none

/-- The blocks that only commands of the account change: Title Table, claim list and accession counter. -/
def SameAccount (s t : State) : Prop := t.table = s.table ∧ t.claims = s.claims ∧ t.decision = s.decision
/-! What is filed with the report unit. -/

/-- R185, R189: one request to the report unit. -/
inductive Filing where
  | reserve
  | item (x : ReportRecord)
  | completion (c : Completion)
  | lane (l : LaneId) (c : NoticeCondition) (e : Edge) (d : Detail)
  | device (c : NoticeCondition) (e : Edge) (d : Detail)
deriving DecidableEq, Repr
/-- R78, R185, R189: an item slot is reserved; a record is filled into its reserved slot; a notice is asked when its enable is on. -/
def State.file (s : State) : Filing → State
  | .reserve => { s with report := { s.report with reservedItem := s.report.reservedItem + 1 } }
  | .item x => { s with report := ReportUnit.fill { s.report with reservedItem := s.report.reservedItem - 1 } x }
  | .completion c =>
    { s with report := ReportUnit.fill { s.report with reservedNonItem := s.report.reservedNonItem - 1 } (.completion c) }
  | .lane l c e d => if (s.lane l).config.enables.on c e then s.ask (.lane l) c e d else s
  | .device c e d => if s.report.enables.on c e then s.ask .device c e d else s
/-- The requests of a list, in their order. -/
def State.files (s : State) (fs : List Filing) : State := fs.foldl State.file s

/-! Invariants. -/

/-- R19: slots strictly rising and below 8192, and no two records of one key. This is the one form of a table. -/
abbrev TitleTable.wf (t : TitleTable) : Prop :=
  (t.slots.map (·.1)).Pairwise (· < ·) ∧ (∀ e ∈ t.slots, e.1 < Config.titleSlots) ∧ (t.slots.map (·.2.key)).Nodup

/-- R42, R43: a run window has 64 cells of counts 0 to 7; no cell above h has a count, nor any while h is absent; the base is at most one
above h, and h is within the window or below it. -/
abbrev SerialPart.wf (p : SerialPart) : Prop :=
  p.cells.length = Config.windowSize ∧ (∀ c ∈ p.cells, c.count ≤ Config.cellMax) ∧
  (p.h = none → ∀ c ∈ p.cells, c.count = 0) ∧
  ∀ h ∈ p.h, p.w ≤ h + 1 ∧ h < p.w + Config.windowSize ∧ ∀ c ∈ p.cells.drop (h + 1 - p.w), c.count = 0
/-- R16: the bounds of the serial part's other fields. -/
abbrev SerialPart.inBounds (p : SerialPart) : Prop :=
  p.p ≤ 999 ∧ p.vb ≤ 65535 ∧ p.first ≤ Config.maxOrdinal ∧ p.gapLag ≤ 15 ∧ p.dayLag ≤ 365
/-- R16: a day, where there is one, is 65535 or below. -/
abbrev dayWf (d : Option Nat) : Prop := ∀ x ∈ d, x ≤ 65535
/-- R16, R33: copies received lie within 0 to 15 and the due day is a day; a serial part is well formed and within its bounds. -/
def TitleBody.ok : TitleBody → Bool
  | .monograph m => decide (m.copies ≤ Config.copiesMax ∧ dayWf m.due)
  | .serial p => decide (p.wf ∧ p.inBounds)
/-- R16, R17: every field of a record within its bounds: Q is 1 to 4 and the plan has Q entries; the kind is one the key's scheme allows;
the publisher code, the announce day and the last arrival day are in range; the parts are well formed. -/
abbrev TitleRecord.wf (r : TitleRecord) : Prop :=
  1 ≤ r.q ∧ r.q ≤ 4 ∧ r.plan.length = r.q ∧ r.key.scheme.allows r.kind = true ∧ r.publisher ≤ Config.maxPublisher ∧
  r.announceDay ≤ 65535 ∧ dayWf r.lastArrival ∧ r.body.ok = true
/-- The day is one, and every record of the table is well formed. -/
abbrev TitleTable.recordsWf (t : TitleTable) : Prop := dayWf t.day ∧ ∀ e ∈ t.slots, TitleRecord.wf e.2

/-- R143: the range of an entry runs upward. -/
def ClaimEntry.upward (e : ClaimEntry) : Bool :=
  match e.body with
  | .issues a b => decide (a ≤ b)
  | .monograph _ => true
/-- R144: two entries of one key are not both MONOGRAPH, and two ISSUES entries of one key neither overlap nor adjoin. -/
def ClaimEntry.apart (e f : ClaimEntry) : Bool :=
  e.key != f.key ||
    match e.body, f.body with
    | .monograph _, .monograph _ => false
    | .issues a b, .issues c d => decide (b + 1 < c ∨ d + 1 < a)
    | .monograph _, .issues _ _ => true
    | .issues _ _, .monograph _ => true
/-- R144: at most 256 entries, each running upward, any two of them apart. -/
abbrev ClaimList.wf (c : ClaimList) : Prop :=
  c.entries.length ≤ Config.claimEntries ∧ (∀ e ∈ c.entries, e.upward = true) ∧
  c.entries.Pairwise fun e f => e.apart f = true

/-- R107, R117: the next number is present exactly while the base is set, lies within 1 to 100,000,000, and is above the last issued. -/
abbrev DecisionUnit.wf (d : DecisionUnit) : Prop :=
  d.baseSet = d.next.isSome ∧
  (∀ n ∈ d.next, 1 ≤ n ∧ n ≤ Config.lastAccession + 1) ∧
  (∀ m ∈ d.last, 1 ≤ m ∧ ∃ n ∈ d.next, m < n)

/-- R144, R149: a record in state LISTED has a MONOGRAPH entry in the claim list, and each MONOGRAPH entry has such a record. -/
abbrev State.claimsAgree (s : State) : Prop :=
  (∀ e ∈ s.claims.entries, e.isMonograph = true →
    ∃ n r m, (n, r) ∈ s.table.slots ∧ r.key = e.key ∧ r.body = .monograph m ∧ m.claim = .listed) ∧
  (∀ n r m, (n, r) ∈ s.table.slots → r.body = .monograph m → m.claim = .listed →
    r.status ≠ .withdrawn ∧ ∃ e ∈ s.claims.entries, e.isMonograph = true ∧ e.key = r.key)
/-- The Title Table and the claim list, each in its form, and agreeing. -/
abbrev State.accountWf (s : State) : Prop := s.table.wf ∧ s.claims.wf ∧ s.claimsAgree

/-- R85: the items a lane holds report slots for. -/
def Lane.slotsHeld (v : Lane) : Nat :=
  if accounts v.mode then v.queue.length + v.held.toList.length else 0
/-- R83: the items of the queue carry successive numbers, the newest the one below the expected number. -/
def Lane.inSequence (v : Lane) : Bool :=
  match v.expected with
  | none => v.queue.isEmpty
  | some e => v.queue.map (·.sq) == (List.range v.queue.length).map fun i => e - BitVec.ofNat 16 (v.queue.length - i)
/-- R85, R87: a DISABLED lane holds no item and only a SILENT or ACTIVE lane holds any; the queue is within the depth; only its last item
may be READING; the hold flag follows its conditions; no record waits to be sent while none is being sent (R63). -/
abbrev Lane.wf (v : Lane) : Prop :=
  (v.state = .disabled ∨ v.state = .stopped → v.queue = [] ∧ v.held = none) ∧ v.queue.length ≤ v.config.depth ∧
  (v.config.depth = 16 ∨ v.config.depth = 32) ∧ (∀ i ∈ v.queue.dropLast, i.state = .decided) ∧
  (∀ i ∈ v.queue, i.state ≠ .confirming) ∧ (∀ h ∈ v.held, h.item.state = .confirming) ∧
  v.inSequence = true ∧ v.hold = v.holdConditions ∧ (v.sending = none → v.outbox = [])
/-- Every lane of the part is well formed. -/
abbrev State.lanesWf (s : State) : Prop := ∀ l : LaneId, (s.lane l).wf

/-- R174, R175: the bounds of a test pattern unit; the generator never holds 0. -/
abbrev TestUnit.wf (t : TestUnit) : Prop :=
  t.generator ≠ 0#15 ∧ t.outstanding.length ≤ Config.maxOutstanding ∧ (∀ o ∈ t.outstanding, o.value ≠ 0#15) ∧
  t.correctRun ≤ Config.syncGain ∧ t.errorRun ≤ Config.syncLoss
/-- R101: the consecutive fault count is within 0 to 3. -/
abbrev State.lanesInRange (s : State) : Prop := ∀ l : LaneId, TestUnit.wf (s.lane l).test ∧ (s.lane l).faults ≤ Config.faultLimit

/-- The open consignments of the part. -/
def State.openConsignments (s : State) : Nat := s.consign.contexts.toList.countP Option.isSome
/-- R130: the number of the next opening lies within 1 to 65535, and a consignment is open only on a NORMAL or DRY lane that is SILENT or
ACTIVE, with a number in that range. -/
abbrev State.consignWf (s : State) : Prop :=
  (1 ≤ s.consign.nextNumber ∧ s.consign.nextNumber ≤ 65535) ∧
  ∀ l : LaneId, ∀ c ∈ s.consignment l, (1 ≤ c.number ∧ c.number ≤ 65535) ∧ accounts (s.lane l).mode = true ∧
    ((s.lane l).state = .silent ∨ (s.lane l).state = .active)

/-- R185: the laws of the report queue: 496 item slots, 16 non-item slots, and a reserved item slot for each item of a NORMAL or DRY lane
and each open consignment; the engine holds the one reserved non-item slot while it runs; the two conditions stand as the
unreserved item slots give them. A DISABLED lane holds no item. -/
abbrev State.reportWf (s : State) : Prop :=
  s.report.usedItem ≤ Config.itemSlots ∧ s.report.usedNonItem ≤ Config.nonItemSlots ∧
  s.report.reservedItem = (s.lanes.toList.map Lane.slotsHeld).sum + s.openConsignments ∧
  s.report.reservedNonItem = s.engine.toList.length ∧
  s.report.spaceLow = decide (s.report.unreserved < Config.lowSpace) ∧ s.report.noSpace = decide (s.report.unreserved = 0) ∧
  ∀ l : LaneId, (s.lane l).state = .disabled → (s.lane l).queue = [] ∧ (s.lane l).held = none
/-- R87, R185: every lane knows whether report space remains, once the news on its way has reached it. -/
abbrev State.newsWf (s : State) : Prop :=
  ∀ l : LaneId, (s.lane l).news.getLastD (s.lane l).noSpace = s.report.noSpace
/-- R187: the records of a batch in transmission that still stand in the report queue. -/
def Line.queued : Line → Nat
  | .batch _ _ n => n
  | .idle | .reply _ => 0
/-- R186: the send point marks a filled record; the hold timer runs exactly while records wait behind it; the records of a batch in
transmission are due. -/
abbrev State.sendWf (s : State) : Prop :=
  (∀ i ∈ s.report.sendPoint, i < s.report.filled.length) ∧
  s.report.holdTimer.isSome = decide (s.report.due < s.report.filled.length) ∧
  s.host.line.queued ≤ s.report.due
/-- R184: the line is free only when no reply waits and no batch is ready. -/
abbrev State.lineWf (s : State) : Prop :=
  s.host.line = .idle → s.host.replies = [] ∧ (s.report.reportsHeld = true ∨ s.report.due = 0)

/-! What commands name. -/

/-- The lane number of a command that names a lane (R65, R69, R77, R79, R80, R138, R139, R171, R179, R180). -/
def Instr.laneByte : Instr → Option Byte
  | .configureLane _ (.fields f) => some f.lane
  | .enableLane _ (.fields b) => some b
  | .disableLane _ (.fields b) => some b
  | .readLane _ (.fields b) => some b
  | .clearDiverterFault _ (.fields b) => some b
  | .setLaneMode _ (.fields f) => some f.lane
  | .injectError _ (.fields b) => some b
  | .readTest _ (.fields b) => some b
  | .closeConsignment _ (.fields b) => some b
  | .readConsignment _ (.fields b) => some b
  | _ => none
/-- The key of a command that names a title (R9). -/
def Instr.keyText : Instr → Option KeyText
  | .announceTitle _ (.fields f) => some f.key
  | .amendTitle _ (.fields f) => some f.key
  | .withdrawTitle _ (.fields k) => some k
  | .readTitle _ (.fields k) => some k
  | .setRun _ (.fields f) => some f.key
  | _ => none
/-- R9, R19: the text gives the key of the record that stands in slot n. -/
def State.finds (s : State) (kt : KeyText) (n : Nat) (r : TitleRecord) : Prop :=
  s.table.wf ∧ (n, r) ∈ s.table.slots ∧ keyOf kt = some r.key
/-- R9, R19: the text gives the key k, and no record has it. -/
def State.lacks (s : State) (kt : KeyText) (k : Key) : Prop := keyOf kt = some k ∧ ∀ e ∈ s.table.slots, e.2.key ≠ k
/-- R23, checks 2 to 6, for the key k. -/
def AnnounceFields.accepted (f : AnnounceFields) (k : Key) : Prop :=
  k.scheme.allows f.kind = true ∧ (1 ≤ f.q.toNat ∧ f.q.toNat ≤ 4) ∧ f.plan.length = f.q.toNat ∧
  (∀ c ∈ f.plan, c = .preserve ∨ c = .reading ∨ c = .transfer ∨ c = .serials) ∧ f.publisher.toNat ≤ 999999 ∧
  (f.kind = .monograph → f.serial = none) ∧
  (f.kind = .serial → f.due = none ∧ ∃ g, f.serial = some g ∧ g.p.toNat ≤ 999 ∧ g.first.toNat ≤ 65535999 ∧
    (∀ x, g.gapLag = some x → x.toNat ≤ 15) ∧ ∀ x, g.dayLag = some x → x.toNat ≤ 365)
/-- R24: what the new record of a key holds. -/
def TitleRecord.newFrom (r : TitleRecord) (f : AnnounceFields) (k : Key) (day : Option Nat) : Prop :=
  r.key = k ∧ r.status = .expected ∧ r.publisher = f.publisher.toNat ∧ r.q = f.q.toNat ∧ r.plan.map Chute.cls = f.plan ∧
  r.announceDay = day.getD 0 ∧ r.lastArrival = none ∧ r.kind = f.kind ∧
  (f.serial = none → r.body = .monograph ⟨f.due.map (·.toNat), 0, .none⟩) ∧
  ∀ g, f.serial = some g → r.body = .serial
    { p := g.p.toNat, vb := g.vb.toNat, first := g.first.toNat, w := g.first.toNat, h := none
      cells := List.replicate 64 ⟨0, false⟩
      gapLag := match g.gapLag with
        | some x => x.toNat
        | none => 3
      dayLag := match g.dayLag with
        | some x => x.toNat
        | none => 0 }
/-- R19: u is t with slot n holding the record r, whatever it held before. -/
def TitleTable.putsRecord (t u : TitleTable) (n : Nat) (r : TitleRecord) : Prop :=
  u.wf ∧ u.day = t.day ∧ ∀ e, e ∈ u.slots ↔ (e ∈ t.slots ∧ e.1 ≠ n) ∨ e = (n, r)
/-- R26, check 2. -/
def AmendFields.inRanges (f : AmendFields) : Prop :=
  (∀ x, f.q = some x → 1 ≤ x.toNat ∧ x.toNat ≤ 4 ∧ f.plan ≠ none) ∧
  (∀ p, f.plan = some p → ∀ c ∈ p, c = .preserve ∨ c = .reading ∨ c = .transfer ∨ c = .serials) ∧
  (∀ x, f.publisher = some x → x.toNat ≤ 999999) ∧ (∀ x, f.gapLag = some x → x.toNat ≤ 15) ∧
  ∀ x, f.dayLag = some x → x.toNat ≤ 365
/-- R26, check 5. -/
def AmendFields.suits (f : AmendFields) (r : TitleRecord) : Prop :=
  (r.kind = .monograph → f.gapLag = none ∧ f.dayLag = none) ∧ (r.kind = .serial → f.due = .keep) ∧
  ∀ p, f.plan = some p → p.length = match f.q with
    | some x => x.toNat
    | none => r.q

/-! Lanes that leave service. -/

/-- R104, R136: the item records of a flush, in order: the held item, the queue from head to tail, the consignment. Items of TEST lanes
fill none (R103). -/
def State.leavingRecords (s : State) (l : LaneId) (reason : Reason) : List ReportRecord :=
  (if accounts (s.lane l).mode then
    (s.lane l).held.toList.map (fun h => .disposition
      (h.item.disposition .diverted h.outlet (h.item.reasonOr .incomplete) .unconfirmed false)) ++
    (s.lane l).queue.map fun i => .disposition
      (i.disposition .flushed (i.decidedOutlet (s.lane l).config.outlets)
        (if i.state = .reading then .incomplete else reason) .unconfirmed false)
  else []) ++
  (s.consignment l).toList.map fun c => .summary ⟨l, c, .abandoned, s.table.today, c.overDeclared⟩
/-- R92, R104, R136, R174: what lane l files as it leaves service: its records, a LEVEL CHANGE to EMPTY when its queue held an item, and
the fall of TEST SYNC when it was IN SYNC. -/
def State.leavingFilings (s : State) (l : LaneId) (reason : Reason) : List Filing :=
  (s.leavingRecords l reason).map .item ++
  (if (s.lane l).queue = [] then [] else [.lane l .levelChange .event (.level .empty)]) ++
  (if (s.lane l).test.inSync then [.lane l .testSync .falling .none] else [])
/-- R88: the rise of HELD, when the hold flag was clear. -/
def State.heldFiling (s : State) (l : LaneId) : List Filing := if (s.lane l).hold then [] else [.lane l .held .rising .none]
/-- R69, R78, R88: what lane l files as it is disabled: what it files leaving service, the fall of the state it leaves, the rise of HELD. -/
def State.disablingFilings (s : State) (l : LaneId) (reason : Reason) : List Filing :=
  s.leavingFilings l reason ++
  (match (s.lane l).state with
    | .silent => [.lane l .silent .falling .none]
    | .stopped => [.lane l .stopped .falling .none]
    | .active | .disabled => []) ++
  s.heldFiling l
/-- R69, R88: the lane with its hold flag set, its station told HOLD when the flag was clear. -/
def Lane.toldHold (v : Lane) : Lane := if v.hold then v else ({ v with hold := true } : Lane).produce .hold

/-! RESTART. -/

/-- R82, R104, R174, R191: a lane after RESTART. Its items are gone and its RESTART values taken; a lane that was not DISABLED has told its
station HOLD when its hold flag was clear, and lost the records it had not begun to send. What it knows of report space, the news on
its way (notes/assumptions/19.md), its mode and its configuration are kept. -/
def Lane.restartedAs (v : Lane) : Lane :=
  let w := { v with
    state := .disabled, sync := false, silenceTimer := none, expected := none, cause := .none, violation := none
    belt := none, diverter := none, queue := [], held := none, faults := 0, faultLevel := false
    counters := .zero, test := ⟨1#15, [], false, false, 0, 0, 0, 0, 0, 0, 0, 0⟩ }
  if v.state = .disabled then { w with hold := true } else Lane.toldHold { w with rx := [], outbox := [] }
/-- R82, R191: what lane l files in a RESTART: the filings of its disabling, when it was not DISABLED, and the fall of its DIVERTER FAULT
level, when that was set. -/
def State.restartFilings (s : State) (l : LaneId) : List Filing :=
  (if (s.lane l).state = .disabled then [] else s.disablingFilings l .restarted) ++
  if (s.lane l).faultLevel then [.lane l .diverterFault .falling .none] else []
/-- R170: the completion record of the operation in progress, ABORTED. -/
def EngineContext.abortedRecord (e : EngineContext) : Completion :=
  ⟨.aborted, e.start, e.current, e.examined, match e.op with
    | .find _ => .find none
    | .sweep => .sweep e.raised e.owed
    | .purge => .purge e.freed⟩

/-! Records of a station. -/

/-- The command a station record gives its lane. -/
def eventOf (l : LaneId) : StationRecord → Instr
  | .heartbeat b d => .heartbeat l b d
  | .itemBegin sq => .itemBegin l sq
  | .observation sq o => .observation l sq o
  | .itemEnd sq o => .itemEnd l sq o
  | .atGate sq => .atGate l sq
  | .confirm sq x => .confirm l sq x
/-- R66: the lane is ACTIVE, and not in ECHO mode: it acts on the record r. -/
def State.acts (s : State) (l : LaneId) (r : StationRecord) : Prop :=
  (s.lane l).state = .active ∧ (s.lane l).mode ≠ .echo ∧ r.wf = true
/-- R67: the lane with its silence timer started again. -/
def Lane.heard (v : Lane) : Lane := { v with silenceTimer := some v.config.silence }
/-- R73, R104, R137, R174: the effect of a violation on lane l, of the cause and by the record given: the lane flushed and STOPPED, its
consignment closed, its records filed, with the rise of STOPPED and of HELD behind them. The two runs of a TEST lane stand
(notes/assumptions/18.md), and so do the records not begun (notes/assumptions/26.md). -/
def State.stoppedBy (s : State) (l : LaneId) (cause : ViolationCause) (type : RecordType) (sq : Seq) : State :=
  ((s.setConsignment l none).setLane l (Lane.toldHold
    { s.lane l with
      state := .stopped, silenceTimer := none, cause := cause, violation := some ⟨type, sq, (s.lane l).expected⟩
      queue := [], held := none
      test := { (s.lane l).test with inSync := false, inject := false }
      counters := { (s.lane l).counters with
        violations := bump (s.lane l).counters.violations
        flushed := Nat.repeat bump (s.lane l).queue.length (s.lane l).counters.flushed } })).files
    (s.leavingFilings l .laneStopped ++ .lane l .stopped .rising (.violation cause) :: s.heldFiling l)

/-! Confirm windows and the gate. -/

/-- R99 to R101: the lane with its confirm window, if one is open, closed with a result. -/
def Lane.windowClosed (v : Lane) (r : ConfirmResult) : Lane :=
  match v.held, r with
  | none, _ => v
  | some _, .confirmed => { v with held := none, faults := 0 }
  | some _, .unconfirmed => { v with held := none }
  | some _, .misrouted | some _, .noConfirm =>
    { v with
      held := none
      faults := min (v.faults + 1) 3
      faultLevel := v.faultLevel || decide (2 ≤ v.faults)
      counters := { v.counters with confirmFaults := bump v.counters.confirmFaults } }
/-- R99, R103: the record of the held item; none on a TEST lane. -/
def State.windowRecords (s : State) (l : LaneId) (r : ConfirmResult) : List ReportRecord :=
  if accounts (s.lane l).mode then
    (s.lane l).held.toList.map fun h => .disposition (h.item.disposition .diverted h.outlet (h.item.reasonOr .incomplete) r false)
  else []
/-- R99, R101: what the closing of the window files: the record of the held item, and the rise of DIVERTER FAULT at the third consecutive
fault. -/
def State.windowFilings (s : State) (l : LaneId) (r : ConfirmResult) : List Filing :=
  (s.windowRecords l r).map .item ++
  if ((s.lane l).windowClosed r).faultLevel = (s.lane l).faultLevel then [] else [.lane l .diverterFault .rising .none]
/-- R96, R103: the records of the items an AT GATE passes over; none on a TEST lane. -/
def State.missingRecords (s : State) (l : LaneId) (ahead : List Item) : List ReportRecord :=
  if accounts (s.lane l).mode then
    ahead.map fun i => .disposition
      (i.disposition .missing (i.decidedOutlet (s.lane l).config.outlets) (i.reasonOr .incomplete) .unconfirmed false)
  else []
/-- R95, R102, R103: the record of an item sent to the run-out; none on a TEST lane. -/
def State.runOutRecords (s : State) (l : LaneId) (i : Item) (reason : Reason) (fault : Bool) : List ReportRecord :=
  if accounts (s.lane l).mode then
    [.disposition (i.disposition .runOut (s.lane l).config.outlets.runout reason .unconfirmed fault)]
  else []
/-- R93, R96: the AT GATE of sq finds the item i with the items ahead of it and the rest behind it. -/
def State.gates (s : State) (l : LaneId) (sq : Seq) (ahead : List Item) (i : Item) (rest : List Item) : Prop :=
  s.acts l (.atGate sq) ∧ (s.lane l).queue = ahead ++ i :: rest ∧ i.sq = sq ∧ ∀ j ∈ ahead, j.sq ≠ sq
/-- R93, R96: the lane with its window closed and its queue cut behind the item named, before that item is dealt with. -/
def Lane.cut (v : Lane) (ahead rest : List Item) : Lane :=
  { (v.windowClosed .noConfirm).heard with
    queue := rest
    counters := { (v.windowClosed .noConfirm).counters with
      missing := Nat.repeat bump ahead.length v.counters.missing } }

/-! Claims. -/

/-- R153: a record after the entries given have been taken. -/
def TitleRecord.takenBy (r : TitleRecord) (es : List ClaimEntry) : TitleRecord :=
  match r.body with
  | .serial _ => r
  | .monograph m =>
    if ∃ e ∈ es, e.isMonograph = true ∧ e.key = r.key then { r with body := .monograph { m with claim := .taken } } else r

/-- R53, R54: one request to the claim list about ordinals of one key: a raise, or the satisfaction of an ordinal, asked for a flagged cell
or for an ordinal behind the window. -/
inductive ClaimRequest where
  | raise (first last : Nat) (cause : ClaimCause)
  | satisfy (m : Nat) (flagged : Bool)
deriving DecidableEq, Repr
/-- The claim list after a request about the key k of copies q on a day. -/
def ClaimRequest.run (k : Key) (q day : Nat) (c : ClaimList) : ClaimRequest → ClaimList
  | .raise a b cause => (c.raiseIssues k a b q cause day).1
  | .satisfy m _ => (c.satisfy k m).1
/-- The claim list after the requests of a list, in their order. -/
def ClaimList.after (c : ClaimList) (k : Key) (q day : Nat) (rs : List ClaimRequest) : ClaimList :=
  rs.foldl (ClaimRequest.run k q day) c
/-- R156: the state after the requests of a list, each with the CLAIM LIST FULL edge it may cause. -/
def State.claimsAfter (s : State) (k : Key) (q : Nat) (rs : List ClaimRequest) : State :=
  rs.foldl (fun s r => s.withClaims (r.run k q s.table.today s.claims)) s
/-- R54: among the requests, in their order, a satisfaction of a cell flagged or not is given the answer. -/
def ClaimList.answers (c : ClaimList) (k : Key) (q day : Nat) (rs : List ClaimRequest) (flagged : Bool) (a : SatisfyAnswer) :
    Prop :=
  ∃ before m rest, rs = before ++ .satisfy m flagged :: rest ∧ ((c.after k q day before).satisfy k m).2 = a
/-- R54: the two indications that the answers to the requests give. -/
def ClaimList.indicates (c : ClaimList) (k : Key) (q day : Nat) (rs : List ClaimRequest) (satisfied claimed : Bool) : Prop :=
  (satisfied = true ↔ ∃ flagged, c.answers k q day rs flagged .trimmed) ∧
  (claimed = true ↔ (∃ flagged, c.answers k q day rs flagged .interior) ∨ c.answers k q day rs true .notFound)
/-- R53, R146: the ranges that are answered Entered when they are raised one after another. -/
def ClaimList.entered (c : ClaimList) (k : Key) (q day : Nat) (cause : ClaimCause) : List (Nat × Nat) → List (Nat × Nat)
  | [] => []
  | y :: rest =>
    let out := c.raiseIssues k y.1 y.2 q cause day
    if out.2 then y :: out.1.entered k q day cause rest else out.1.entered k q day cause rest
/-- R47, R50, R152: the ranges are the maximal runs of consecutive ordinals that meet P, in ascending order. -/
def areRunsOf (rs : List (Nat × Nat)) (P : Nat → Prop) : Prop :=
  (∀ x, (∃ y ∈ rs, y.1 ≤ x ∧ x ≤ y.2) ↔ P x) ∧ rs.Pairwise (fun y z => y.2 + 1 < z.1) ∧ ∀ y ∈ rs, y.1 ≤ y.2

/-! The table engine. -/

/-- R160: the command that starts a long operation, and the code of its reply. -/
def Operation.command (op : Operation) (tag : Byte) : Instr × Byte :=
  match op with
  | .find f => (.find tag (.fields f), 0xB0#8)
  | .sweep => (.sweep tag (.fields ()), 0xB1#8)
  | .purge => (.purge tag (.fields ()), 0xB2#8)
/-- R160: the slot a long operation starts from. -/
def Operation.startSlot : Operation → Nat
  | .find f => f.start.toNat
  | .sweep => 0
  | .purge => 0
/-- R163: the parameters of a long command lie in their ranges. -/
def Operation.inRange : Operation → Prop
  | .find f => f.start.toNat ≤ 8192 ∧ match f.field with
    | .copiesOutstanding => f.value.toNat ≤ 4
    | .dueDay => f.value.toNat ≤ 65535
    | .publisherCode => f.value.toNat ≤ 999999
    | .lastArrivalDay => f.value.toNat ≤ 65535
  | .sweep => True
  | .purge => True
/-- R163, R164: a record meets a FIND. -/
def FindFields.met (f : FindFields) (r : TitleRecord) : Prop :=
  (f.withdrawn = true ∨ r.status ≠ .withdrawn) ∧ ∃ v,
    (match f.field, r.body with
      | .copiesOutstanding, .monograph m => v = r.q - m.copies
      | .copiesOutstanding, .serial _ => v = 0
      | .dueDay, .monograph m => m.due = some v
      | .dueDay, .serial _ => False
      | .publisherCode, _ => v = r.publisher
      | .lastArrivalDay, _ => r.lastArrival = some v) ∧
    match f.compare with
    | .lessOrEqual => v ≤ f.value.toNat
    | .equal => v = f.value.toNat
    | .greaterOrEqual => f.value.toNat ≤ v
/-- R162: the operation of e has ended: its completion record is filled into its slot and the engine is IDLE. -/
def State.completed (s : State) (t : Termination) (e : EngineContext) (next : Nat) (r : OperationResult) : State :=
  { s with engine := none, report := s.report.fillCompletion ⟨t, e.start, next, e.examined, r⟩ }

/-! What an ITEM END decides. -/

/-- R90: an item with the observation its ITEM END carries. -/
def Item.ended (i : Item) (o : Option Observation) : Item :=
  match o with
  | none => i
  | some o => i.join o
/-- R8, R10: the identifiers an item is decided by. -/
def Item.idents (i : Item) : List Ident := identsOf (i.observations.map HeldObservation.judged)
/-- R72, R108: the lane is ACTIVE in mode NORMAL or DRY, i is its one READING item, and the ITEM END names it. -/
def State.reads (s : State) (l : LaneId) (sq : Seq) (o : Option Observation) (i : Item) : Prop :=
  (s.lane l).state = .active ∧ accounts (s.lane l).mode = true ∧ (s.lane l).readingItem = some i ∧
  (∀ j ∈ (s.lane l).queue, j.state = .reading → j = i) ∧ i.sq = sq ∧ (StationRecord.itemEnd sq o).wf = true
/-- R90, R109, R124: the lane with its READING item DECIDED as d and counted. -/
def Lane.decidedAs (v : Lane) (o : Option Observation) (d : Decision) : Lane :=
  { v with
    silenceTimer := some v.config.silence
    queue := v.queue.map fun i =>
      if i.state = .reading then (i.ended o).settled ((i.ended o).observations.map HeldObservation.judged) d else i
    counters := { v.counters with
      decided := bump v.counters.decided
      checkFails := if d.reason = some .checkFail then bump v.counters.checkFails else v.counters.checkFails } }
/-- R122: the desk of a QUERY decision on lane l, where p is the publisher code of the record found, or 0. -/
def State.queryDesk (s : State) (l : LaneId) (p : Nat) : Fin 4 :=
  s.decision.desk (match s.consignment l with
    | some c => c.publisher
    | none => p)
/-- R109, R122, R123: a decision of the class and reason given, with nothing else recorded. -/
def State.plainDecision (s : State) (l : LaneId) (cls : ItemClass) (p : Nat) (r : Reason) : Decision where
  cls := cls
  desk := if cls = .query then some (s.queryDesk l p) else none
  outlet := (s.lane l).config.outlets.outlet cls (if cls = .query then some (s.queryDesk l p) else none)
  reason := some r
  key := none
  copy := none
  range := none
  accession := none
  dry := decide ((s.lane l).mode = .dry)
  satisfied := false
  claimed := false
  notOpened := false
/-- R90, R124, R185: the ITEM END completes: the item is decided as d on its lane, fs are filed in their order, and the report space is
settled. w is s with what the decision commits: to the Title Table, the claim list, the accession counter and the consignments. -/
def Decides (s : State) (l : LaneId) (sq : Seq) (o : Option Observation) (d : Decision) (fs : List Filing) (w : State) : Prop :=
  Happens (.itemEnd l sq o) s (((w.setLane l ((s.lane l).decidedAs o d)).files fs).settleReport)
/-- R118, R124: the notice of the first NO ACCESSION decision of an exhaustion. -/
def State.exhaustionFilings (s : State) (l : LaneId) (sq : Seq) : List Filing :=
  if s.decision.exhaustNotice then [] else [.device .accessionExhausted .event (.laneItem l sq)]
/-- R10, R19: the item yields the key of the record r of slot n, not a tombstone, with the enumeration e. -/
def State.readsTitle (s : State) (l : LaneId) (sq : Seq) (o : Option Observation) (i : Item) (e : Option Enumeration) (n : Nat)
    (r : TitleRecord) : Prop :=
  s.reads l sq o i ∧ choose (i.ended o).idents = .key r.key e ∧ s.table.wf ∧ (n, r) ∈ s.table.slots ∧ r.status ≠ .withdrawn
/-- R33: a MONOGRAPH record after a committed copy. -/
def TitleRecord.arrived (r : TitleRecord) (m : MonographPart) (day : Nat) : TitleRecord :=
  { r with
    lastArrival := some day
    status := if r.q ≤ min (m.copies + 1) 15 then .complete else r.status
    body := .monograph { m with
      copies := min (m.copies + 1) 15
      claim := if r.q ≤ min (m.copies + 1) 15 then .none else m.claim } }
/-- R33, R149: the claim list after a committed copy of a MONOGRAPH. -/
def ClaimList.copyArrived (c : ClaimList) (r : TitleRecord) (m : MonographPart) : ClaimList :=
  if r.q ≤ min (m.copies + 1) 15 ∧ m.claim = .listed then
    { c with entries := c.entries.filter fun e => !(e.key == r.key && e.isMonograph) }
  else c
/-- R39: what makes an ENUMERATION ERROR. -/
def SerialPart.misread (p : SerialPart) (e : Option Enumeration) : Prop :=
  ∀ x, e = some x → x.span.toNat < 1 ∨ 4 < x.span.toNat ∨
    0 < p.p ∧ (x.volume.toNat < p.vb ∨ x.issue.toNat < 1 ∨ p.p < x.issue.toNat)
/-- R38: the first ordinal. -/
def SerialPart.firstOrdinal (p : SerialPart) (e : Enumeration) : Nat :=
  if p.p = 0 then e.issue.toNat else (e.volume.toNat - p.vb) * p.p + (e.issue.toNat - 1)
/-- R41: a first ordinal is further than 256 above the reference. -/
def SerialPart.tooFar (p : SerialPart) (n : Nat) : Prop :=
  match p.h with
  | some h => h + 256 < n
  | none => p.w + 256 < n + 1
/-- R46, R48: the copy ordinal of an arrival of first ordinal n that is not wholly behind. -/
def SerialPart.copyOrdinal (p : SerialPart) (n : Nat) : Nat := min ((p.cell (max p.w n)).count + 1) 7
/-- R48: the count of an ordinal after the arrival of the ordinals n to last has been marked. -/
def SerialPart.marked (p : SerialPart) (n last x : Nat) : Nat :=
  if n ≤ x ∧ x ≤ last then min ((p.cell x).count + 1) 7 else (p.cell x).count
/-- R49: the highest received ordinal after an arrival up to last. -/
def SerialPart.reached (p : SerialPart) (last : Nat) : Nat :=
  match p.h with
  | some h => max h last
  | none => last
/-- R46: the satisfactions of the ordinals n to last that are behind, in ascending order. -/
def SerialPart.behindRequests (p : SerialPart) (n last : Nat) : List ClaimRequest :=
  ((List.range' n (last + 1 - n)).filter fun x => decide (x < p.w)).map fun x => .satisfy x false
/-- R48: the satisfactions of the flagged cells that the arrival brings from Q − 1 to Q, in ascending order. -/
def SerialPart.markRequests (p : SerialPart) (q n last : Nat) : List ClaimRequest :=
  ((List.range' n (last + 1 - n)).filter fun x =>
    decide (p.w ≤ x ∧ (p.cell x).claimed = true ∧ (p.cell x).count + 1 = q)).map fun x => .satisfy x true
/-- R47: the ordinals that leave the window as it slides up to hold last, incomplete and with their flags clear. -/
def SerialPart.slidesOut (p : SerialPart) (q last x : Nat) : Prop :=
  p.w ≤ x ∧ x + 63 < last ∧ (p.cell x).count < q ∧ (p.cell x).claimed = false
/-- R50: the ordinals that are gaps once the arrival has been marked. -/
def SerialPart.leavesGap (p : SerialPart) (q n last x : Nat) : Prop :=
  p.w ≤ x ∧ last ≤ x + 63 ∧ x + p.gapLag < p.reached last ∧ p.marked n last x < q ∧ (p.cell x).claimed = false
/-- R46 to R50, R53, R54: what a committed arrival that is not wholly behind asks of the claim list, in order: the behind ordinals, the
runs that slid out, the flagged cells completed, the runs of gaps. -/
def SerialPart.requests (p : SerialPart) (q n last : Nat) (slid gaps : List (Nat × Nat)) : List ClaimRequest :=
  p.behindRequests n last ++ slid.map (fun y => .raise y.1 y.2 .slidOut) ++ p.markRequests q n last ++
  gaps.map fun y => .raise y.1 y.2 .gap
/-- R47 to R51, R53: the serial part p' after a committed arrival of the ordinals n to last at p, not wholly behind. The window has slid up
to hold last and advanced over complete cells; the covered ordinals are counted; flags stay, and the gap runs that were entered are
flagged. -/
def SerialPart.arrivedAs (p p' : SerialPart) (q n last : Nat) (flagged : List (Nat × Nat)) : Prop :=
  p' = { p with w := p'.w, h := some (p.reached last), cells := p'.cells } ∧ p'.cells.length = 64 ∧
  max p.w (last + 1 - 64) ≤ p'.w ∧ (∀ x, max p.w (last + 1 - 64) ≤ x → x < p'.w → q ≤ p.marked n last x) ∧
  (p'.cell p'.w).count < q ∧
  ∀ x, p'.w ≤ x → (p'.cell x).count = p.marked n last x ∧
    ((p'.cell x).claimed = true ↔ (p.cell x).claimed = true ∨ ∃ y ∈ flagged, y.1 ≤ x ∧ x ≤ y.2)

end Sys2Proof.Machine
end

