-- ==== Sys2Proof/Certificates/Slice0/Obligations.lean ====
section
/-! DEFINITION. The statements for the provers, from the numbered rules of spec/. Takes, Refuses and Happens are those of Safety.lean: a
command's effect is one state, after which the line is granted when it is free. -/

open Sys2Proof Sys2Proof.Machine

/-! The queue of commands. -/

/-- A step runs the command at the front of the queue on the state with the queue's rest; on an empty queue the part idles (the model's
choice, notes/assumptions/1.md). -/
def Obligations.StepRunsTheFrontCommand : Prop :=
  (∀ (c : Instr) (s : State), step { s with pending := c :: s.pending } = exec c s) ∧
  ∀ s : State, s.pending = [] → step s = .next s

/-- Every one of the 60 commands completes in every state, and leaves the waiting commands alone. The rules do not say it as one: that an
event that cannot occur changes nothing (notes/assumptions/3.md), that functions are total where no run comes (notes/assumptions/16.md), and
that a station record outside its ranges counts as not well formed (notes/assumptions/17.md) are the model's. -/
def Obligations.EveryCommandCompletes : Prop :=
  ∀ (c : Instr) (s : State), ∃ t, exec c s = .next t ∧ t.pending = s.pending

/-! The host link. -/

/-- R181, R182: errors of the host line and a dropped command count, and do nothing else; a frame of any command that finds 8 replies
waiting is counted and dropped as it is taken (the model's reading, notes/assumptions/5.md); a code that names no command is answered
REFUSED, UNKNOWN. -/
def Obligations.HostLineErrorsAreCounted : Prop :=
  (∀ s : State, Happens .hostLengthError s
    { s with host := { s.host with counters := { s.host.counters with lengthErrors := bump s.host.counters.lengthErrors } } }) ∧
  (∀ s : State, Happens .hostCrcError s
    { s with host := { s.host with counters := { s.host.counters with crcErrors := bump s.host.counters.crcErrors } } }) ∧
  (∀ s : State, 8 ≤ s.host.replies.length → Happens .commandDropped s
    { s with host := { s.host with counters := { s.host.counters with
        framesTaken := bump s.host.counters.framesTaken
        commandsDropped := bump s.host.counters.commandsDropped } } }) ∧
  (∀ (c : Instr) (code tag : Byte) (s : State), Instr.frame c = some (code, tag) → 8 ≤ s.host.replies.length → exec c s = .next
    { s with host := { s.host with counters := { s.host.counters with
        framesTaken := bump s.host.counters.framesTaken
        commandsDropped := bump s.host.counters.commandsDropped } } }) ∧
  ∀ (code tag : Byte) (s : State), code.toNat ∉ commandCodes → s.listens →
    Takes (.unknownCommand code tag) s (if code.toNat < 0x80 then code + 0x80#8 else 0xFF#8) tag (.refused .unknown .none)
      { s with host := { s.host with counters := { s.host.counters with unknownCodes := bump s.host.counters.unknownCodes } } }

/-- R9, R183 and the rules of the lane commands: a command with a malformed body, with a lane number above 7, or with a key that is not a
valid BOOK, SERIAL or LOCAL identifier is refused INVALID, before anything else is judged, and changes nothing. -/
def Obligations.InvalidCommandsAreRefused : Prop :=
  (∀ (code tag : Byte) (c : Instr) (s : State), malformedCommand code tag = some c → s.listens →
    Refuses c s (code + 0x80#8) tag .invalid .none) ∧
  (∀ (c : Instr) (code tag b : Byte) (s : State), Instr.frame c = some (code, tag) → Instr.laneByte c = some b → 8 ≤ b.toNat →
    s.listens → Refuses c s (code + 0x80#8) tag .invalid .none) ∧
  ∀ (c : Instr) (code tag : Byte) (k : KeyText) (s : State), Instr.frame c = some (code, tag) → Instr.keyText c = some k →
    keyOf k = none → s.listens → Refuses c s (code + 0x80#8) tag .invalid .none

/-- R193: every well formed command that carries fields is read back from its own frame, with every operand as it was. What the writer puts
in the bytes of an absent field that keeps its width is the model's choice (notes/assumptions/12.md). -/
def Obligations.CommandsReadBackFromTheirFrames : Prop :=
  ∀ (i : Instr) (code tag : Byte) (body : List Byte), i.wf = true → encodeCommand i = some (code, tag, body) →
    decodeCommand code tag body = i

/-- R60, R61, R181: what the two receivers make of the bytes they hold, and where their hunts go on. The framer takes a whole frame as it is
laid out; it drops, and counts by its event, a frame whose length is above 1024 and one whose CRC does not agree, and hunts on behind the
A5H of its marker; it passes over other bytes and keeps a frame not yet whole. A lane's receiver takes a whole valid record, drops one that
fails its check and hunts on behind its start byte, and goes on behind one that is not well formed. What is found joins the queue as its
commands (the model's choice, notes/assumptions/6.md). -/
def Obligations.ReceiversTakeWholeFrames : Prop :=
  (∀ (code tag : Byte) (body rest : List Byte), body.length ≤ 1024 →
    scanHost (hostFrame code tag body ++ rest).length (hostFrame code tag body ++ rest) =
      (.complete code tag body :: (scanHost rest.length rest).1, (scanHost rest.length rest).2)) ∧
  (∀ (hi lo : Byte) (rest : List Byte), 1024 < (hi ++ lo).toNat →
    scanHost (rest.length + 4) (0xA5#8 :: 0x5A#8 :: hi :: lo :: rest) =
      (.lengthError :: (scanHost (rest.length + 3) (0x5A#8 :: hi :: lo :: rest)).1,
        (scanHost (rest.length + 3) (0x5A#8 :: hi :: lo :: rest)).2)) ∧
  (∀ (hi lo : Byte) (covered sum rest : List Byte), (hi ++ lo).toNat ≤ 1024 → covered.length = (hi ++ lo).toNat + 2 →
    sum.length = 2 → sum ≠ be16 (crc (hi :: lo :: covered)) →
    ∃ after : List Byte, after = 0x5A#8 :: hi :: lo :: covered ++ sum ++ rest ∧
      scanHost (after.length + 1) (0xA5#8 :: after) =
        (.crcError :: (scanHost after.length after).1, (scanHost after.length after).2)) ∧
  (∀ (b : Byte) (rest : List Byte), b ≠ 0xA5#8 ∨ (∃ x t, rest = x :: t ∧ x ≠ 0x5A#8) →
    scanHost (rest.length + 1) (b :: rest) = scanHost rest.length rest) ∧
  (∀ buf : List Byte, buf = [] ∨ buf = [0xA5#8] ∨ buf = [0xA5#8, 0x5A#8] ∨ (∃ hi, buf = [0xA5#8, 0x5A#8, hi]) ∨
      (∃ hi lo rest, buf = 0xA5#8 :: 0x5A#8 :: hi :: lo :: rest ∧ (hi ++ lo).toNat ≤ 1024 ∧
        rest.length < (hi ++ lo).toNat + 4) →
    scanHost buf.length buf = ([], buf)) ∧
  (∀ (r : StationRecord) (rest : List Byte), r.wf = true →
    scanLane (r.bytes ++ rest).length (r.bytes ++ rest) =
      (.record r :: (scanLane rest.length rest).1, (scanLane rest.length rest).2)) ∧
  (∀ (len : Byte) (taken rest : List Byte), taken.length = len.toNat → byteSum (0x7E#8 :: len :: taken) ≠ 0x00#8 →
    scanLane (taken.length + rest.length + 2) (0x7E#8 :: len :: taken ++ rest) =
      (.checkFailure :: (scanLane (taken.length + rest.length + 1) (len :: taken ++ rest)).1,
        (scanLane (taken.length + rest.length + 1) (len :: taken ++ rest)).2)) ∧
  (∀ (len : Byte) (taken rest : List Byte), taken.length = len.toNat → byteSum (0x7E#8 :: len :: taken) = 0x00#8 →
    (∀ r : StationRecord, r.wf = true → r.bytes ≠ 0x7E#8 :: len :: taken) →
    scanLane (taken.length + rest.length + 2) (0x7E#8 :: len :: taken ++ rest) =
      (.notWellFormed :: (scanLane rest.length rest).1, (scanLane rest.length rest).2)) ∧
  (∀ (b : Byte) (rest : List Byte), b ≠ 0x7E#8 → scanLane (rest.length + 1) (b :: rest) = scanLane rest.length rest) ∧
  (∀ buf : List Byte, buf = [] ∨ buf = [0x7E#8] ∨
      (∃ len rest, buf = 0x7E#8 :: len :: rest ∧ rest.length < len.toNat) →
    scanLane buf.length buf = ([], buf)) ∧
  (∀ (s : State) (bytes : List Byte) (es : List HostEvent) (keep : List Byte),
    scanHost (s.host.rx ++ bytes).length (s.host.rx ++ bytes) = (es, keep) →
    s.receiveHost bytes = { s with
      pending := s.pending ++ es.map fun e => match e with
        | .lengthError => .hostLengthError
        | .crcError => .hostCrcError
        | .complete c t b => decodeCommand c t b
      host := { s.host with rx := keep } }) ∧
  (∀ (s : State) (l : LaneId) (bytes : List Byte), (s.lane l).state = .disabled → s.receiveLane l bytes = s) ∧
  ∀ (s : State) (l : LaneId) (bytes : List Byte) (es : List LaneEvent) (keep : List Byte), (s.lane l).state ≠ .disabled →
    scanLane ((s.lane l).rx ++ bytes).length ((s.lane l).rx ++ bytes) = (es, keep) →
    s.receiveLane l bytes = State.setLane
      { s with pending := s.pending ++ es.map fun e => match e with
        | .checkFailure => .linkCheckFailure l
        | .notWellFormed => .recordNotWellFormed l
        | .record r => eventOf l r } l
      { s.lane l with rx := keep }

/-- R63, R184, R187: whose turn the line is, and what the end of a transmission does. A frame begun keeps the line; a free line takes the
oldest waiting reply, else, while reports are not held, a batch of the due records from the front, as many as fit, at most 16, tagged with
the batch number. With nothing in transmission an end changes nothing (the model's choice, notes/assumptions/3.md). At the end of a batch
its records leave, and the two conditions of R185 are settled again; a batch that a CLEAR overtook (n = 0) is counted and advances the batch
number all the same (the model's reading, notes/assumptions/8.md). -/
def Obligations.TransmissionsEnd : Prop :=
  (∀ s : State, s.host.line ≠ .idle → s.grant = s) ∧
  (∀ (s : State) (r : Reply) (rest : List Reply), s.host.line = .idle → s.host.replies = r :: rest →
    s.grant = { s with host := { s.host with line := .reply r, replies := rest } }) ∧
  (∀ s : State, s.host.line = .idle → s.host.replies = [] → s.report.reportsHeld = true ∨ s.report.due = 0 → s.grant = s) ∧
  (∀ s : State, s.host.line = .idle → s.host.replies = [] → s.report.reportsHeld = false → s.report.due ≠ 0 →
    ∃ n : Nat, n ≤ 16 ∧ n ≤ s.report.due ∧ n ≤ s.report.filled.length ∧
      (batchBody (s.report.filled.take n)).length ≤ 1024 ∧
      (n < 16 → n < s.report.due → n < s.report.filled.length → 1024 < (batchBody (s.report.filled.take (n + 1))).length) ∧
      s.grant = { s with host := { s.host with
        line := .batch s.report.batchNumber (s.report.filled.take n) n } }) ∧
  (∀ (s : State) (r : Reply), s.host.line = .reply r → Happens .replySent s
    { s with host := { s.host with
        line := .idle
        counters := { s.host.counters with repliesSent := bump s.host.counters.repliesSent } } }) ∧
  (∀ s : State, (∀ r, s.host.line ≠ .reply r) → Happens .replySent s s) ∧
  (∀ (s : State) (tag : Byte) (rs : List ReportRecord) (n : Nat), s.host.line = .batch tag rs n → Happens .batchSent s
    (State.settleReport
      { s with
        host := { s.host with
          line := .idle
          counters := { s.host.counters with
            batchesSent := bump s.host.counters.batchesSent
            recordsSent := min (s.host.counters.recordsSent + rs.length) 4294967295 } }
        report := { s.report with
          filled := s.report.filled.drop n
          sendPoint := match s.report.sendPoint with
            | some i => if i < n then none else some (i - n)
            | none => none
          batchNumber := s.report.batchNumber + 1#8 } })) ∧
  (∀ s : State, (∀ tag rs n, s.host.line ≠ .batch tag rs n) → Happens .batchSent s s) ∧
  (∀ (s : State) (l : LaneId), (s.lane l).sending = none → Happens (.laneRecordSent l) s s) ∧
  (∀ (s : State) (l : LaneId) (r : LaneOut), (s.lane l).sending = some r → (s.lane l).outbox = [] →
    Happens (.laneRecordSent l) s (s.setLane l { s.lane l with sending := none })) ∧
  ∀ (s : State) (l : LaneId) (r x : LaneOut) (rest : List LaneOut), (s.lane l).sending = some r →
    (s.lane l).outbox = x :: rest →
    Happens (.laneRecordSent l) s (s.setLane l { s.lane l with sending := some x, outbox := rest })

/-! The report unit. -/

/-- R186, R188, R189, R193: the report commands, the expiry of the hold timer, and SET NOTICES, which sets the enables of the four device
conditions as its pairs give them, those not named off, and is refused INVALID for a lane condition or STARTED. That the bits of an enable
set above bit 1 (of an event's above bit 0) are ignored is the model's choice (notes/assumptions/14.md), and that an expiry with the timer
stopped changes nothing (notes/assumptions/3.md). -/
def Obligations.ReportCommandsSetTheReportUnit : Prop :=
  (∀ (tag : Byte) (s : State), s.listens → Takes (.holdReports tag (.fields ())) s 0x85#8 tag (.done .empty)
    { s with report := { s.report with reportsHeld := true } }) ∧
  (∀ (tag : Byte) (s : State), s.listens → Takes (.releaseReports tag (.fields ())) s 0x86#8 tag (.done .empty)
    { s with report := { s.report with reportsHeld := false } }) ∧
  (∀ (tag : Byte) (s : State) (n : Nat), s.listens → s.report.filled.length = n + 1 →
    Takes (.flushReports tag (.fields ())) s 0x87#8 tag (.done (.due (n + 1)))
      { s with report := { s.report with sendPoint := some n, holdTimer := none } }) ∧
  (∀ (tag : Byte) (s : State), s.listens → s.report.filled = [] → s.report.sendPoint = none →
    Takes (.flushReports tag (.fields ())) s 0x87#8 tag (.done (.due 0)) s) ∧
  (∀ (tag : Byte) (ms : Half) (s : State), s.listens →
    Takes (.setReportHold tag (.fields ms)) s 0x84#8 tag (.done (.holdTime (min ms.toNat 1000)))
      { s with report := { s.report with holdTime := min ms.toNat 1000 } }) ∧
  (∀ (s : State) (n t : Nat), s.report.holdTimer = some t → s.report.filled.length = n + 1 →
    Happens .holdTimerExpiry s { s with report := { s.report with sendPoint := some n, holdTimer := none } }) ∧
  (∀ s : State, s.report.holdTimer = none → Happens .holdTimerExpiry s s) ∧
  (∀ (tag : Byte) (ps : List EnablePair) (s : State), s.listens → enablePairsWf ps = true →
    (∀ p ∈ ps, p.condition = .claimListFull ∨ p.condition = .reportSpaceLow ∨ p.condition = .tableFull ∨
      p.condition = .accessionExhausted) →
    ∃ e : DeviceEnables,
      Takes (.setNotices tag (.fields ps)) s 0x83#8 tag (.done (.deviceEnables e))
        { s with report := { s.report with enables := e } } ∧
      (∀ p ∈ ps, p.condition ≠ .accessionExhausted →
        e.on p.condition .rising = p.set.getLsbD 0 ∧ e.on p.condition .falling = p.set.getLsbD 1) ∧
      (∀ p ∈ ps, p.condition = .accessionExhausted → e.accessionExhausted = p.set.getLsbD 0) ∧
      ∀ (c : NoticeCondition) (edge : Edge), c ≠ .started → (∀ p ∈ ps, p.condition ≠ c) → e.on c edge = false) ∧
  ∀ (tag : Byte) (ps : List EnablePair) (p : EnablePair) (s : State), s.listens → p ∈ ps →
    (p.condition = .started ∨ laneCondition p.condition = true) →
    Refuses (.setNotices tag (.fields ps)) s 0x83#8 tag .invalid .none

/-- R186, R189: a notice asked stands behind the other records and is due with them, or is dropped and counted when no non-item slot is
free; a condition whose enable is off asks none, and STARTED is always asked. A record filled stands behind the others, and makes all of
them due at four filled records, those in transmission among them (the model's reading, notes/assumptions/11.md), below 32 unreserved item
slots or at a hold time of 0, and otherwise waits with the hold timer running. -/
def Obligations.ReportRecordsAreFilled : Prop :=
  (∀ (s : State) (l : LaneId) (c : NoticeCondition) (e : Edge) (d : Detail), s.laneNotice l c e d =
    if (s.lane l).config.enables.on c e = true then s.ask (.lane l) c e d else s) ∧
  (∀ (s : State) (c : NoticeCondition) (e : Edge) (d : Detail), s.deviceNotice c e d =
    if c = .started ∨ s.report.enables.on c e = true then s.ask .device c e d else s) ∧
  (∀ (s : State) (a : Source) (c : NoticeCondition) (e : Edge) (d : Detail), s.report.usedNonItem < 16 →
    s.ask a c e d = { s with report := { s.report with
      filled := s.report.filled ++ [.notice ⟨a, c, e, s.table.day, d⟩]
      sendPoint := some s.report.filled.length
      holdTimer := none } }) ∧
  (∀ (s : State) (a : Source) (c : NoticeCondition) (e : Edge) (d : Detail), 16 ≤ s.report.usedNonItem →
    s.ask a c e d = { s with host := { s.host with counters := { s.host.counters with
      noticesDropped := bump s.host.counters.noticesDropped } } }) ∧
  (∀ (r : ReportUnit) (x : ReportRecord),
    3 ≤ r.filled.length ∨ ({ r with filled := r.filled ++ [x] } : ReportUnit).unreserved < 32 ∨ r.holdTime = 0 →
    r.fill x = { r with filled := r.filled ++ [x], sendPoint := some r.filled.length, holdTimer := none }) ∧
  ∀ (r : ReportUnit) (x : ReportRecord),
    r.filled.length < 3 → 32 ≤ ({ r with filled := r.filled ++ [x] } : ReportUnit).unreserved → r.holdTime ≠ 0 →
    r.fill x = { r with
      filled := r.filled ++ [x]
      holdTimer := match r.holdTimer with
        | some t => some t
        | none => some r.holdTime }

/-- R185, R186, R189: settling the report space. The two conditions take the values the unreserved item slots give; a change of no report
space is told every lane, as news behind the news on its way (the model's reading, notes/assumptions/10.md); a fall below 32 makes every
filled record due, and nothing else moves the send point or the hold timer; each edge of REPORT SPACE LOW asks its notice. -/
def Obligations.ReportSpaceIsSettled : Prop :=
  ∀ (s u : State) (no low due : Bool),
    (no = true ↔ s.report.unreserved = 0) → (low = true ↔ s.report.unreserved < 32) →
    (due = true ↔ low = true ∧ s.report.spaceLow = false ∧ s.report.filled ≠ []) →
    u = { s with
      report := { s.report with
        noSpace := no, spaceLow := low
        sendPoint := if due then some (s.report.filled.length - 1) else s.report.sendPoint
        holdTimer := if due then none else s.report.holdTimer }
      lanes := Vector.ofFn fun l : LaneId => { s.lane l with
        news := (s.lane l).news ++ if no = s.report.noSpace then [] else [no] } } →
    s.settleReport =
      if low = s.report.spaceLow then u
      else u.deviceNotice .reportSpaceLow (if low then .rising else .falling) (.count s.report.unreserved)

/-! Resets. -/

/-- R35, R82, R106, R129, R142, R158, R170, R174, R189, R190, R192: power-on gives every block its power-on values, and the STARTED notice
is in the first frame sent. The commands that wait outside the part are the model's own and stay. That its batch is then in transmission
(notes/assumptions/4.md), that the lanes' receivers hunt and nothing is being sent (notes/assumptions/7.md), and that a lane has been told
of report space and has no news on its way (notes/assumptions/10.md) are the model's readings. -/
def Obligations.PowerOnGivesTheResetState : Prop :=
  (∀ s : State, exec .powerOn s = .next { State.reset with pending := s.pending }) ∧
  State.reset.table = ⟨[], none⟩ ∧ State.reset.claims = ⟨[], 0, 30⟩ ∧ State.reset.engine = none ∧
  (State.reset.decision.baseSet = false ∧ State.reset.decision.next = none ∧ State.reset.decision.last = none ∧
    State.reset.decision.exhaustNotice = false ∧
    ∀ i : Fin 64, (State.reset.decision.steering[i]).val = i.val % 4) ∧
  (∀ l : LaneId, State.reset.consignment l = none ∧ State.reset.consign.stray[l] = 0) ∧
  State.reset.consign.nextNumber = 1 ∧
  (∀ l : LaneId, State.reset.lane l =
    { state := .disabled, sync := false, silenceTimer := none, expected := none, cause := .none, violation := none
      belt := none, diverter := none, mode := .normal, configured := false
      config := ⟨16, ⟨0, 1, 2, 3, 4, 5, 5, 5, 5, 7⟩, .off, 2, 500, .off⟩
      hold := true, noSpace := false, news := [], queue := [], held := none, faults := 0, faultLevel := false
      counters := .zero, test := ⟨1#15, [], false, false, 0, 0, 0, 0, 0, 0, 0, 0⟩, rx := [], sending := none, outbox := [] }) ∧
  State.reset.report = ⟨[.notice ⟨.device, .started, .event, none, .started .powerOn⟩], 0, 0, some 0, none, 50, false, .off,
    0x00#8, false, false⟩ ∧
  State.reset.host = ⟨[], [], .batch 0x00#8 [.notice ⟨.device, .started, .event, none, .started .powerOn⟩] 1, .zero⟩

/-- R82, R192: CLEAR sets every block as at power-on except the receive framer, the reply queue and the link counters; a batch in
transmission stays on the line to its end, none of its records in the queue any more, and so does a reply; the STARTED notice is the only
record of the queue. The lane records not begun are dropped; that one being sent goes to its end (notes/assumptions/7.md), and that a lane
has then been told of report space and has no news on its way (notes/assumptions/10.md), are the model's readings. -/
def Obligations.ClearKeepsOnlyTheHostLink : Prop :=
  ∀ (tag : Byte) (s : State), s.listens → Takes (.clear tag (.fields ())) s 0x89#8 tag (.done .empty)
    { State.reset with
      pending := s.pending
      host := { s.host with line := match s.host.line with
        | .batch t rs _ => .batch t rs 0
        | .reply r => .reply r
        | .idle => .idle }
      report := { ReportUnit.reset with
        filled := [.notice ⟨.device, .started, .event, none, .started .clear⟩], sendPoint := some 0 }
      lanes := Vector.ofFn fun i => { Lane.reset with sending := s.lanes[i].sending } }

/-- R36, R82, R129, R142, R158, R170, R191: RESTART keeps the account, the day, the report settings and the records filled. Lane after lane,
from lane 0, a lane that is not DISABLED is flushed RESTARTED or INCOMPLETE, its consignment closed ABANDONED and its station told HOLD when
its flag was clear; every lane comes to its RESTART values, a DIVERTER FAULT level that was set falling. Then the engine's operation ends
ABORTED, and STARTED is asked. What a lane knows of report space, and the news on its way, it keeps (the model's reading,
notes/assumptions/19.md); so does a lane that was DISABLED the records it has not begun to send (notes/assumptions/7.md). For states that no
run reaches (a day unset, an item decided without a decision, a slot not reserved) the values are the model's choice
(notes/assumptions/16.md). -/
def Obligations.RestartKeepsTheAccount : Prop :=
  ∀ (tag : Byte) (s : State), s.listens → s.lanesWf → s.consignWf →
    Takes (.restart tag (.fields ())) s 0x88#8 tag (.done .empty)
      (State.files
        { s with
          engine := none
          consign := { s.consign with contexts := Vector.replicate 8 none, stray := Vector.replicate 8 0 }
          lanes := Vector.ofFn fun l : LaneId => (s.lane l).restartedAs }
        ((List.finRange 8).flatMap s.restartFilings ++
          s.engine.toList.map (fun e => .completion e.abortedRecord) ++ [.device .started .event (.started .restart)]))

/-! Reading. -/

/-- R127, R155, R168, R190: the read commands of the part answer with what stands, and change nothing. That IDENTIFY gives its revision in
one byte and its numbers in two is the model's reading (notes/assumptions/12.md). -/
def Obligations.ReadCommandsChangeNothing : Prop :=
  ∀ (tag : Byte) (s : State), s.listens →
    Takes (.identify tag (.fields ())) s 0x81#8 tag (.done .identity) s ∧
    ReplyData.identity.bytes =
      [0x0A#8, 0x31#8, 0x18#8, 0x40#8, 0x02#8, 0x00#8, 0x08#8, 0x20#8, 0x00#8, 0x01#8, 0x00#8, 0x02#8, 0x00#8, 0x01#8, 0xF0#8] ∧
    Takes (.readCounters tag (.fields ())) s 0x82#8 tag
      (.done (.counters { s.host.counters with framesTaken := bump s.host.counters.framesTaken }
        (s.lanes.toList.map fun v => v.counters))) s ∧
    Takes (.readAccession tag (.fields ())) s 0xA1#8 tag
      (.done (.accession s.decision.baseSet s.decision.next s.decision.last s.decision.exhaustNotice)) s ∧
    Takes (.readClaimStatus tag (.fields ())) s 0xAE#8 tag
      (.done (.claimStatus
        { count := s.claims.entries.length
          lost := s.claims.lost
          full := decide (s.claims.entries.length = 256)
          grace := s.claims.grace
          monographs := s.claims.entries.countP ClaimEntry.isMonograph
          issues := s.claims.entries.countP fun e => !e.isMonograph
          oldestDay := match s.claims.entries with
            | [] => none
            | e :: _ => some e.day })) s ∧
    Takes (.engineStatus tag (.fields ())) s 0xB4#8 tag (.done (.engine s.engine)) s

/-- R79, R139, R180: READ LANE, READ CONSIGNMENT and READ TEST are taken in every state of the lane, show it whole and change nothing; a
lane number outside 0 to 7 is refused INVALID. -/
def Obligations.LaneReadsShowTheWholeStanding : Prop :=
  (∀ (tag b : Byte) (l : LaneId) (s : State), s.listens → b.toNat = l.val →
    Takes (.readLane tag (.fields b)) s 0x9B#8 tag
      (.done (.lane
        { state := (s.lane l).state, mode := (s.lane l).mode, configured := (s.lane l).configured
          sync := (s.lane l).sync, hold := (s.lane l).hold
          level := if (s.lane l).queue.length = 0 then .empty
            else if (s.lane l).queue.length ≤ (s.lane l).config.depth / 2 then .low
            else if (s.lane l).queue.length < (s.lane l).config.depth then .high else .full
          occupancy := (s.lane l).queue.length, confirmHold := (s.lane l).held.isSome
          faultLevel := (s.lane l).faultLevel, faults := (s.lane l).faults, expected := (s.lane l).expected
          cause := (s.lane l).cause, violation := (s.lane l).violation, belt := (s.lane l).belt
          diverter := (s.lane l).diverter, config := (s.lane l).config, counters := (s.lane l).counters })) s ∧
    Takes (.readConsignment tag (.fields b)) s 0xA9#8 tag
      (.done (.consignment l
        (match s.consignment l with
          | none => none
          | some c => some (c, decide (0 < c.declared ∧ c.declared < c.counted)))
        s.consign.stray[l] s.consign.nextNumber)) s ∧
    Takes (.readTest tag (.fields b)) s 0x9F#8 tag (.done (.test (s.lane l).mode (s.lane l).test)) s) ∧
  ∀ (tag b : Byte) (s : State), s.listens → 8 ≤ b.toNat →
    Refuses (.readLane tag (.fields b)) s 0x9B#8 tag .invalid .none ∧
    Refuses (.readConsignment tag (.fields b)) s 0xA9#8 tag .invalid .none ∧
    Refuses (.readTest tag (.fields b)) s 0x9F#8 tag .invalid .none

/-- R30, R31: READ TITLE gives the record of its key and the slot; LIST TITLES collects the records from its start slot in rising order, up
to its count, and says where to go on. -/
def Obligations.TitlesAreReadAndListed : Prop :=
  (∀ (tag : Byte) (kt : KeyText) (s : State), s.listens → keyOf kt = none →
    Refuses (.readTitle tag (.fields kt)) s 0x93#8 tag .invalid .none) ∧
  (∀ (tag : Byte) (kt : KeyText) (k : Key) (s : State), s.listens → s.lacks kt k →
    Refuses (.readTitle tag (.fields kt)) s 0x93#8 tag .notFound .none) ∧
  (∀ (tag : Byte) (kt : KeyText) (n : Nat) (r : TitleRecord) (s : State), s.listens → s.finds kt n r →
    Takes (.readTitle tag (.fields kt)) s 0x93#8 tag (.done (.title n r)) s) ∧
  (∀ (tag : Byte) (f : ListFields) (s : State), s.listens → 8192 < f.start.toNat ∨ f.count = 0#16 ∨ 8 < f.count.toNat →
    Refuses (.listTitles tag (.fields f)) s 0x94#8 tag .invalid .none) ∧
  ∀ (tag : Byte) (f : ListFields) (s : State), s.listens → s.table.wf → f.start.toNat ≤ 8192 → 1 ≤ f.count.toNat →
    f.count.toNat ≤ 8 →
    ∃ (got : List (Nat × TitleRecord)) (next : Nat),
      Takes (.listTitles tag (.fields f)) s 0x94#8 tag
        (.done (.titles
          (got.map fun e =>
            { slot := e.1, key := e.2.key, kind := e.2.kind, status := e.2.status
              tombstone := decide (e.2.status = .withdrawn) })
          next (decide (next = 8192)))) s ∧
      (∀ e ∈ got, e ∈ s.table.slots ∧ f.start.toNat ≤ e.1 ∧ e.1 < next) ∧
      (∀ e ∈ s.table.slots, f.start.toNat ≤ e.1 → e.1 < next → e ∈ got) ∧
      (got.map (·.1)).Pairwise (· < ·) ∧
      (got.length = f.count.toNat ∧ (∃ e ∈ got, next = e.1 + 1) ∨ got.length < f.count.toNat ∧ next = 8192)

/-! The Title Table. -/

/-- R19, R20, R23 to R25, R150: ANNOUNCE TITLE is checked in order; of a new key it takes the lowest free slot, and tells when it was the
last; of a key in the table it replaces the record in its slot, whatever its status, in a full table too, and removes the key's claims. -/
def Obligations.AnnounceTitleInsertsOrReplaces : Prop :=
  (∀ (tag : Byte) (f : AnnounceFields) (k : Key) (s : State), s.listens → keyOf f.key = some k →
    ¬ AnnounceFields.accepted f k → Refuses (.announceTitle tag (.fields f)) s 0x90#8 tag .invalid .none) ∧
  (∀ (tag : Byte) (f : AnnounceFields) (k : Key) (s : State), s.listens → s.table.wf → s.lacks f.key k →
    AnnounceFields.accepted f k → s.table.slots.length = 8192 →
    Refuses (.announceTitle tag (.fields f)) s 0x90#8 tag .full .none) ∧
  (∀ (tag : Byte) (f : AnnounceFields) (k : Key) (n : Nat) (s : State), s.listens → s.table.wf → s.lacks f.key k →
    AnnounceFields.accepted f k → n < 8192 → (∀ e ∈ s.table.slots, e.1 ≠ n) →
    (∀ m, m < n → ∃ e ∈ s.table.slots, e.1 = m) →
    ∃ (r : TitleRecord) (t : TitleTable), r.newFrom f k s.table.day ∧ s.table.putsRecord t n r ∧
      Takes (.announceTitle tag (.fields f)) s 0x90#8 tag (.done (.announced n .inserted))
        (if t.slots.length = 8192 then ({ s with table := t } : State).deviceNotice .tableFull .rising .none
          else { s with table := t })) ∧
  ∀ (tag : Byte) (f : AnnounceFields) (n : Nat) (old : TitleRecord) (s : State), s.listens → s.finds f.key n old →
    AnnounceFields.accepted f old.key →
    ∃ (r : TitleRecord) (t : TitleTable), r.newFrom f old.key s.table.day ∧ s.table.putsRecord t n r ∧
      Takes (.announceTitle tag (.fields f)) s 0x90#8 tag (.done (.announced n .replaced))
        (State.withClaims { s with table := t }
          { s.claims with entries := s.claims.entries.filter fun e => e.key != old.key })

/-- R26: what refuses AMEND TITLE once its key is valid. -/
def Obligations.AmendTitleIsChecked : Prop :=
  (∀ (tag : Byte) (f : AmendFields) (k : Key) (s : State), s.listens → keyOf f.key = some k → ¬ AmendFields.inRanges f →
    Refuses (.amendTitle tag (.fields f)) s 0x91#8 tag .invalid .none) ∧
  (∀ (tag : Byte) (f : AmendFields) (k : Key) (s : State), s.listens → s.lacks f.key k → AmendFields.inRanges f →
    Refuses (.amendTitle tag (.fields f)) s 0x91#8 tag .notFound .none) ∧
  (∀ (tag : Byte) (f : AmendFields) (n : Nat) (r : TitleRecord) (s : State), s.listens → s.finds f.key n r →
    AmendFields.inRanges f → r.status = .withdrawn →
    Refuses (.amendTitle tag (.fields f)) s 0x91#8 tag .badState .none) ∧
  ∀ (tag : Byte) (f : AmendFields) (n : Nat) (r : TitleRecord) (s : State), s.listens → s.finds f.key n r →
    AmendFields.inRanges f → r.status ≠ .withdrawn → ¬ AmendFields.suits f r →
    Refuses (.amendTitle tag (.fields f)) s 0x91#8 tag .invalid .none

/-- R26, R27, R149: AMEND TITLE of a MONOGRAPH. The changes are made; Q at or below the copies received makes an EXPECTED record COMPLETE
and satisfies its claim; Q above them makes a COMPLETE record EXPECTED. -/
def Obligations.AmendTitleSettlesMonographs : Prop :=
  ∀ (tag : Byte) (f : AmendFields) (n : Nat) (r : TitleRecord) (m : MonographPart) (s : State), s.listens →
    s.finds f.key n r → r.status ≠ .withdrawn → r.body = .monograph m → AmendFields.inRanges f → AmendFields.suits f r →
    ∃ (r' : TitleRecord) (claim : ClaimState) (t : TitleTable), s.table.putsRecord t n r' ∧
      r' = { r with
        status := if r'.q ≤ m.copies then .complete else .expected
        q := match f.q with
          | some x => x.toNat
          | none => r.q
        plan := r'.plan
        publisher := match f.publisher with
          | some x => x.toNat
          | none => r.publisher
        body := .monograph { m with
          due := match f.due with
            | .keep => m.due
            | .set d => some d.toNat
            | .remove => none
          claim := claim } } ∧
      (f.plan = none → r'.plan = r.plan) ∧ (∀ p, f.plan = some p → r'.plan.map Chute.cls = p) ∧
      (r.status = .expected ∧ r'.q ≤ m.copies → claim = .none) ∧
      (r.status = .complete ∨ m.copies < r'.q → claim = m.claim) ∧
      Takes (.amendTitle tag (.fields f)) s 0x91#8 tag
        (.done (.amended ⟨r.status, some (m.copies, m.claim)⟩ ⟨r'.status, some (m.copies, claim)⟩))
        (if m.claim = .listed ∧ r.status = .expected ∧ r'.q ≤ m.copies then
          State.withClaims { s with table := t }
            { s.claims with entries := s.claims.entries.filter fun e => !(e.key == r.key && e.isMonograph) }
        else { s with table := t })

/-- R26, R28, R51: AMEND TITLE of a SERIAL. The changes are made, the base advances over complete cells, and the claim list is left alone.
The advance stops at the first cell that is not complete; the cells that stay keep their counts and flags. -/
def Obligations.AmendTitleAdvancesSerials : Prop :=
  (∀ (tag : Byte) (f : AmendFields) (n : Nat) (r : TitleRecord) (p : SerialPart) (s : State), s.listens →
    s.finds f.key n r → r.status ≠ .withdrawn → r.body = .serial p → AmendFields.inRanges f → AmendFields.suits f r →
    ∃ (r' : TitleRecord) (t : TitleTable), s.table.putsRecord t n r' ∧
      r' = { r with
        q := match f.q with
          | some x => x.toNat
          | none => r.q
        plan := r'.plan
        publisher := match f.publisher with
          | some x => x.toNat
          | none => r.publisher
        body := .serial (SerialPart.advance
          { p with
            gapLag := match f.gapLag with
              | some x => x.toNat
              | none => p.gapLag
            dayLag := match f.dayLag with
              | some x => x.toNat
              | none => p.dayLag } r'.q) } ∧
      (f.plan = none → r'.plan = r.plan) ∧ (∀ x, f.plan = some x → r'.plan.map Chute.cls = x) ∧
      Takes (.amendTitle tag (.fields f)) s 0x91#8 tag (.done (.amended ⟨r.status, none⟩ ⟨r.status, none⟩))
        { s with table := t }) ∧
  ∀ (p : SerialPart) (q : Nat), p.cells.length = 64 → 1 ≤ q →
    p.advance q = { p with w := (p.advance q).w, cells := (p.advance q).cells } ∧ (p.advance q).cells.length = 64 ∧
    p.w ≤ (p.advance q).w ∧ (∀ x, p.w ≤ x → x < (p.advance q).w → q ≤ (p.cell x).count) ∧
    (p.cell (p.advance q).w).count < q ∧ ∀ x, (p.advance q).w ≤ x → (p.advance q).cell x = p.cell x

/-- R29, R150: WITHDRAW TITLE makes the record a tombstone that keeps its other fields, and removes the key's claims; a tombstone stays as
it is. -/
def Obligations.WithdrawTitleMakesTombstones : Prop :=
  (∀ (tag : Byte) (kt : KeyText) (s : State), s.listens → keyOf kt = none →
    Refuses (.withdrawTitle tag (.fields kt)) s 0x92#8 tag .invalid .none) ∧
  (∀ (tag : Byte) (kt : KeyText) (k : Key) (s : State), s.listens → s.lacks kt k →
    Refuses (.withdrawTitle tag (.fields kt)) s 0x92#8 tag .notFound .none) ∧
  (∀ (tag : Byte) (kt : KeyText) (n : Nat) (r : TitleRecord) (s : State), s.listens → s.finds kt n r →
    r.status = .withdrawn → Takes (.withdrawTitle tag (.fields kt)) s 0x92#8 tag (.done (.withdrawn n .withdrawn)) s) ∧
  ∀ (tag : Byte) (kt : KeyText) (n : Nat) (r : TitleRecord) (s : State), s.listens → s.finds kt n r →
    r.status ≠ .withdrawn →
    ∃ (r' : TitleRecord) (t : TitleTable), s.table.putsRecord t n r' ∧
      r' = { r with status := .withdrawn, body := r'.body } ∧
      (∀ m, r.body = .monograph m → r'.body = .monograph { m with claim := .none }) ∧
      (∀ p, r.body = .serial p → r'.body = .serial p) ∧
      Takes (.withdrawTitle tag (.fields kt)) s 0x92#8 tag (.done (.withdrawn n r.status))
        (State.withClaims { s with table := t }
          { s.claims with entries := s.claims.entries.filter fun e => e.key != r.key })

/-- R57: SET RUN, its five checks in order and its effect: the window at the new base, its cells clear, h absent, the claims untouched. -/
def Obligations.SetRunRepositionsTheWindow : Prop :=
  (∀ (tag : Byte) (f : SetRunFields) (s : State), s.listens → keyOf f.key = none →
    Refuses (.setRun tag (.fields f)) s 0x96#8 tag .invalid .none) ∧
  (∀ (tag : Byte) (f : SetRunFields) (k : Key) (s : State), s.listens → keyOf f.key = some k → 65535999 < f.base.toNat →
    Refuses (.setRun tag (.fields f)) s 0x96#8 tag .invalid .none) ∧
  (∀ (tag : Byte) (f : SetRunFields) (k : Key) (s : State), s.listens → s.lacks f.key k → f.base.toNat ≤ 65535999 →
    Refuses (.setRun tag (.fields f)) s 0x96#8 tag .notFound .none) ∧
  (∀ (tag : Byte) (f : SetRunFields) (n : Nat) (r : TitleRecord) (s : State), s.listens → s.finds f.key n r →
    f.base.toNat ≤ 65535999 → r.status = .withdrawn →
    Refuses (.setRun tag (.fields f)) s 0x96#8 tag .badState .none) ∧
  (∀ (tag : Byte) (f : SetRunFields) (n : Nat) (r : TitleRecord) (s : State), s.listens → s.finds f.key n r →
    f.base.toNat ≤ 65535999 → r.status ≠ .withdrawn → r.kind = .monograph →
    Refuses (.setRun tag (.fields f)) s 0x96#8 tag .invalid .none) ∧
  ∀ (tag : Byte) (f : SetRunFields) (n : Nat) (r : TitleRecord) (p : SerialPart) (s : State), s.listens →
    s.finds f.key n r → f.base.toNat ≤ 65535999 → r.status ≠ .withdrawn → r.body = .serial p →
    ∃ t : TitleTable,
      s.table.putsRecord t n
        { r with body := .serial { p with w := f.base.toNat, h := none, cells := List.replicate 64 ⟨0, false⟩ } } ∧
      Takes (.setRun tag (.fields f)) s 0x96#8 tag (.done (.run n p.w p.h f.base.toNat)) { s with table := t }

/-! Settings. -/

/-- R21, R126, R128, R154: SET DAY sets the day and SET GRACE the grace, clamped to 365; SET ACCESSION BASE and SET STEERING, the checks of
each in order and its effect; each reply holds what its rule names. -/
def Obligations.SettingsAreTaken : Prop :=
  (∀ (tag : Byte) (d : Half) (s : State), s.listens →
    Takes (.setDay tag (.fields d)) s 0x95#8 tag (.done (.day s.table.day d.toNat))
      { s with table := { s.table with day := some d.toNat } }) ∧
  (∀ (tag : Byte) (d : Half) (s : State), s.listens →
    Takes (.setGrace tag (.fields d)) s 0xAD#8 tag (.done (.grace s.claims.grace (min d.toNat 365)))
      { s with claims := { s.claims with grace := min d.toNat 365 } }) ∧
  (∀ (tag : Byte) (b : Quad) (s : State), s.listens → b.toNat = 0 ∨ 99999999 < b.toNat →
    Refuses (.setAccessionBase tag (.fields b)) s 0xA0#8 tag .invalid .none) ∧
  (∀ (tag : Byte) (b : Quad) (m : Nat) (s : State), s.listens → 1 ≤ b.toNat → b.toNat ≤ 99999999 →
    s.decision.last = some m → b.toNat ≤ m → Refuses (.setAccessionBase tag (.fields b)) s 0xA0#8 tag .low .none) ∧
  (∀ (tag : Byte) (b : Quad) (s : State), s.listens → 1 ≤ b.toNat → b.toNat ≤ 99999999 →
    (∀ m, s.decision.last = some m → m < b.toNat) →
    Takes (.setAccessionBase tag (.fields b)) s 0xA0#8 tag (.done (.accessionBase s.decision.next b.toNat))
      { s with decision := { s.decision with baseSet := true, next := some b.toNat } }) ∧
  (∀ (tag : Byte) (f : SteeringFields) (s : State), s.listens →
    63 < f.first.toNat ∨ 64 < f.count.toNat ∨ 64 < f.first.toNat + f.count.toNat ∨ f.desks.length ≠ f.count.toNat ∨
      (∃ d ∈ f.desks, 3 < d.toNat) →
    Refuses (.setSteering tag (.fields f)) s 0xA2#8 tag .invalid .none) ∧
  ∀ (tag : Byte) (f : SteeringFields) (s : State), s.listens → f.first.toNat ≤ 63 →
    f.first.toNat + f.count.toNat ≤ 64 → f.desks.length = f.count.toNat → (∀ d ∈ f.desks, d.toNat ≤ 3) →
    ∃ v : Vector (Fin 4) 64,
      (∀ i : Fin 64, (v[i]).val =
        if f.first.toNat ≤ i.val ∧ i.val < f.first.toNat + f.count.toNat then (f.desks.getD (i.val - f.first.toNat) 0#8).toNat
        else (s.decision.steering[i]).val) ∧
      Takes (.setSteering tag (.fields f)) s 0xA2#8 tag (.done (.steering v))
        { s with decision := { s.decision with steering := v } }

/-! The lanes. -/

/-- R75, R77, R78, R193: CONFIGURE LANE is checked in order. It sets every field given, clamped where it is a clamped one, keeps every field
left out, sets the configured flag of a DISABLED lane, and answers with the whole configuration. That the bits of an enable set above bit 1
(of an event's above bit 0) are ignored is the model's choice (notes/assumptions/14.md). -/
def Obligations.ConfigureLaneSetsTheFieldsGiven : Prop :=
  (∀ (tag : Byte) (f : ConfigureFields) (s : State), s.listens → 8 ≤ f.lane.toNat →
    Refuses (.configureLane tag (.fields f)) s 0x98#8 tag .invalid .none) ∧
  (∀ (tag : Byte) (f : ConfigureFields) (l : LaneId) (s : State), s.listens → f.lane.toNat = l.val →
    f.depth = none ∧ f.outlets = none ∧ f.slip = none ∧ f.silence = none ∧ f.confirm = none ∧ f.enables = none →
    Refuses (.configureLane tag (.fields f)) s 0x98#8 tag .invalid .none) ∧
  (∀ (tag : Byte) (f : ConfigureFields) (l : LaneId) (s : State), s.listens → f.lane.toNat = l.val →
    (∃ o, f.outlets = some o ∧ ∃ x ∈ o, 7 < x.toNat) ∨
      (∃ ps, f.enables = some ps ∧ ∃ p ∈ ps, laneCondition p.condition = false) →
    Refuses (.configureLane tag (.fields f)) s 0x98#8 tag .invalid .none) ∧
  (∀ (tag : Byte) (f : ConfigureFields) (l : LaneId) (s : State), s.listens → f.lane.toNat = l.val → f.wf = true →
    (∀ o, f.outlets = some o → ∀ x ∈ o, x.toNat ≤ 7) →
    (∀ ps, f.enables = some ps → ∀ p ∈ ps, laneCondition p.condition = true) →
    f.depth ≠ none ∨ f.outlets ≠ none ∨ f.slip ≠ none ∨ f.silence ≠ none ∨ f.confirm ≠ none →
    (s.lane l).state ≠ .disabled → Refuses (.configureLane tag (.fields f)) s 0x98#8 tag .badState .none) ∧
  ∀ (tag : Byte) (f : ConfigureFields) (l : LaneId) (s : State), s.listens → f.lane.toNat = l.val → f.wf = true →
    (∀ o, f.outlets = some o → ∀ x ∈ o, x.toNat ≤ 7) →
    (∀ ps, f.enables = some ps → ∀ p ∈ ps, laneCondition p.condition = true) →
    f.depth ≠ none ∨ f.outlets ≠ none ∨ f.slip ≠ none ∨ f.silence ≠ none ∨ f.confirm ≠ none ∨ f.enables ≠ none →
    (s.lane l).state = .disabled ∨
      f.depth = none ∧ f.outlets = none ∧ f.slip = none ∧ f.silence = none ∧ f.confirm = none →
    ∃ c : LaneConfig,
      Takes (.configureLane tag (.fields f)) s 0x98#8 tag (.done (.laneConfig c))
        (s.setLane l { s.lane l with
          config := c
          configured := if (s.lane l).state = .disabled then true else (s.lane l).configured }) ∧
      (c.depth = match f.depth with
        | none => (s.lane l).config.depth
        | some b => if b.toNat ≤ 24 then 16 else 32) ∧
      (f.outlets = none → c.outlets = (s.lane l).config.outlets) ∧
      (∀ o, f.outlets = some o → c.outlets.bytes = o) ∧
      (c.slip = match f.slip with
        | none => (s.lane l).config.slip
        | some d => d) ∧
      (c.silence = match f.silence with
        | none => (s.lane l).config.silence
        | some b => max 1 (min b.toNat 10)) ∧
      (c.confirm = match f.confirm with
        | none => (s.lane l).config.confirm
        | some b => max 100 (min b.toNat 2000)) ∧
      (f.enables = none → c.enables = (s.lane l).config.enables) ∧
      ∀ ps, f.enables = some ps →
        (∀ p ∈ ps, p.condition = .silent ∨ p.condition = .stopped ∨ p.condition = .diverterFault ∨ p.condition = .held ∨
          p.condition = .testSync →
          c.enables.on p.condition .rising = p.set.getLsbD 0 ∧ c.enables.on p.condition .falling = p.set.getLsbD 1) ∧
        (∀ p ∈ ps, p.condition = .levelChange ∨ p.condition = .checkFail ∨ p.condition = .slipSeen ∨
          p.condition = .phantom → c.enables.on p.condition .event = p.set.getLsbD 0) ∧
        ∀ (x : NoticeCondition) (edge : Edge), (∀ p ∈ ps, p.condition ≠ x) → c.enables.on x edge = false

/-- R65, R174: ENABLE LANE, its checks in order, and its effect; HOLD is the first record the lane then sends. -/
def Obligations.EnableLaneEntersService : Prop :=
  (∀ (tag b : Byte) (s : State), s.listens → 8 ≤ b.toNat →
    Refuses (.enableLane tag (.fields b)) s 0x99#8 tag .invalid .none) ∧
  (∀ (tag b : Byte) (l : LaneId) (s : State), s.listens → b.toNat = l.val → (s.lane l).state ≠ .disabled →
    Refuses (.enableLane tag (.fields b)) s 0x99#8 tag .badState .none) ∧
  (∀ (tag b : Byte) (l : LaneId) (s : State) (configuration day base : Bool), s.listens → b.toNat = l.val →
    (s.lane l).state = .disabled →
    (configuration = true ↔ (s.lane l).configured = false) →
    (day = true ↔ ((s.lane l).mode = .normal ∨ (s.lane l).mode = .dry) ∧ s.table.day = none) →
    (base = true ↔ (s.lane l).mode = .normal ∧ s.decision.baseSet = false) →
    configuration = true ∨ day = true ∨ base = true →
    Refuses (.enableLane tag (.fields b)) s 0x99#8 tag .notReady (.notReady configuration day base)) ∧
  ∀ (tag b : Byte) (l : LaneId) (s : State), s.listens → b.toNat = l.val → (s.lane l).state = .disabled →
    (s.lane l).configured = true → ((s.lane l).mode = .normal ∨ (s.lane l).mode = .dry → s.table.day ≠ none) →
    ((s.lane l).mode = .normal → s.decision.baseSet = true) →
    Takes (.enableLane tag (.fields b)) s 0x99#8 tag (.done (.laneMode (s.lane l).mode))
      ((s.setLane l (Lane.produce
        { s.lane l with
          state := .silent, sync := false, expected := none, cause := .none, violation := none
          silenceTimer := some (s.lane l).config.silence, hold := true, rx := []
          test := if (s.lane l).mode = .test ∨ (s.lane l).mode = .echo then ⟨1#15, [], false, false, 0, 0, 0, 0, 0, 0, 0, 0⟩
            else (s.lane l).test } .hold)).laneNotice l .silent .rising .none)

/-- R69, R78, R88, R92, R104, R137, R174: DISABLE LANE of a lane in service flushes it with reason DISABLED, closes its consignment
ABANDONED, stops its timer, drops the records not begun and tells its station HOLD when the hold flag was clear, and files its records and
notices in their order. Its receiver hunts anew (the model's reading, notes/assumptions/7.md), and a TEST lane keeps its two runs
(notes/assumptions/18.md). A DISABLED lane stays as it is, and answers no item (the model's reading, notes/assumptions/21.md). For states
that no run reaches (a day unset, an item decided without a decision, a slot not reserved) the values are the model's choice
(notes/assumptions/16.md). -/
def Obligations.DisableLaneFlushesAndCloses : Prop :=
  (∀ (tag b : Byte) (s : State), s.listens → 8 ≤ b.toNat →
    Refuses (.disableLane tag (.fields b)) s 0x9A#8 tag .invalid .none) ∧
  (∀ (tag b : Byte) (l : LaneId) (s : State), s.listens → b.toNat = l.val → (s.lane l).state = .disabled →
    Takes (.disableLane tag (.fields b)) s 0x9A#8 tag (.done (.disabled .disabled 0)) s) ∧
  ∀ (tag b : Byte) (l : LaneId) (s : State), s.listens → b.toNat = l.val → (s.lane l).state ≠ .disabled →
    Takes (.disableLane tag (.fields b)) s 0x9A#8 tag
      (.done (.disabled (s.lane l).state ((s.lane l).queue.length + (s.lane l).held.toList.length)))
      (((s.setConsignment l none).setLane l (Lane.toldHold
        { s.lane l with
          state := .disabled, sync := false, silenceTimer := none, expected := none, queue := [], held := none
          rx := [], outbox := []
          test := { (s.lane l).test with inSync := false, inject := false }
          counters := { (s.lane l).counters with
            flushed := Nat.repeat bump (s.lane l).queue.length (s.lane l).counters.flushed } })).files
        (s.disablingFilings l .disabled))

/-- R80, R171, R179: CLEAR DIVERTER FAULT, SET LANE MODE and INJECT ERROR. -/
def Obligations.LaneSettingsCommands : Prop :=
  (∀ (tag b : Byte) (s : State), s.listens → 8 ≤ b.toNat →
    Refuses (.clearDiverterFault tag (.fields b)) s 0x9C#8 tag .invalid .none ∧
    (∀ m, Refuses (.setLaneMode tag (.fields ⟨b, m⟩)) s 0x9D#8 tag .invalid .none) ∧
    Refuses (.injectError tag (.fields b)) s 0x9E#8 tag .invalid .none) ∧
  (∀ (tag b : Byte) (l : LaneId) (s : State), s.listens → b.toNat = l.val → (s.lane l).faultLevel = true →
    Takes (.clearDiverterFault tag (.fields b)) s 0x9C#8 tag (.done (.diverter true (s.lane l).faults))
      ((s.setLane l { s.lane l with faults := 0, faultLevel := false }).laneNotice l .diverterFault .falling .none)) ∧
  (∀ (tag b : Byte) (l : LaneId) (s : State), s.listens → b.toNat = l.val → (s.lane l).faultLevel = false →
    Takes (.clearDiverterFault tag (.fields b)) s 0x9C#8 tag (.done (.diverter false (s.lane l).faults))
      (s.setLane l { s.lane l with faults := 0 })) ∧
  (∀ (tag : Byte) (f : LaneModeFields) (l : LaneId) (s : State), s.listens → f.lane.toNat = l.val →
    (s.lane l).state ≠ .disabled → Refuses (.setLaneMode tag (.fields f)) s 0x9D#8 tag .badState .none) ∧
  (∀ (tag : Byte) (f : LaneModeFields) (l : LaneId) (s : State), s.listens → f.lane.toNat = l.val →
    (s.lane l).state = .disabled →
    Takes (.setLaneMode tag (.fields f)) s 0x9D#8 tag (.done (.modes (s.lane l).mode f.mode))
      (s.setLane l { s.lane l with mode := f.mode })) ∧
  (∀ (tag b : Byte) (l : LaneId) (s : State), s.listens → b.toNat = l.val →
    (s.lane l).mode ≠ .test ∨ ((s.lane l).state ≠ .silent ∧ (s.lane l).state ≠ .active) →
    Refuses (.injectError tag (.fields b)) s 0x9E#8 tag .badState .none) ∧
  ∀ (tag b : Byte) (l : LaneId) (s : State), s.listens → b.toNat = l.val → (s.lane l).mode = .test →
    (s.lane l).state = .silent ∨ (s.lane l).state = .active →
    Takes (.injectError tag (.fields b)) s 0x9E#8 tag (.done .empty)
      (s.setLane l { s.lane l with test := { (s.lane l).test with inject := true } })

/-! Consignments and claims. -/

/-- R136, R138: CLOSE CONSIGNMENT fills the summary of the lane's open consignment into its slot and closes it, whatever the lane's state.
The closing day is 0 while the day is unset, which no run reaches with a consignment open (the model's choice, notes/assumptions/16.md). -/
def Obligations.CloseConsignmentFillsTheSummary : Prop :=
  (∀ (tag b : Byte) (s : State), s.listens → 8 ≤ b.toNat →
    Refuses (.closeConsignment tag (.fields b)) s 0xA8#8 tag .invalid .none) ∧
  (∀ (tag b : Byte) (l : LaneId) (s : State), s.listens → b.toNat = l.val → s.consignment l = none →
    Refuses (.closeConsignment tag (.fields b)) s 0xA8#8 tag .badState .none) ∧
  ∀ (tag b : Byte) (l : LaneId) (c : Consignment) (s : State), s.listens → b.toNat = l.val → s.consignment l = some c →
    Takes (.closeConsignment tag (.fields b)) s 0xA8#8 tag
      (.done (.consignmentClosed c (decide (0 < c.declared ∧ c.declared < c.counted))))
      (State.setConsignment
        (s.onReport fun r => ReportUnit.fill { r with reservedItem := r.reservedItem - 1 }
          (.summary ⟨l, c, .command, s.table.day.getD 0, decide (0 < c.declared ∧ c.declared < c.counted)⟩))
        l none)

/-- R153: TAKE CLAIMS gives the oldest entries, removes them, and sets TAKEN the claim state of each MONOGRAPH record among them. -/
def Obligations.TakeClaimsRemovesTheOldest : Prop :=
  (∀ (tag : Byte) (n : Half) (s : State), s.listens → n = 0#16 ∨ 16 < n.toNat →
    Refuses (.takeClaims tag (.fields n)) s 0xAC#8 tag .invalid .none) ∧
  ∀ (tag : Byte) (n : Half) (s : State), s.listens → s.table.wf → 1 ≤ n.toNat → n.toNat ≤ 16 →
    Takes (.takeClaims tag (.fields n)) s 0xAC#8 tag
      (.done (.claims (s.claims.entries.take n.toNat) (s.claims.entries.length - n.toNat)))
      (State.withClaims
        { s with table := { s.table with
          slots := s.table.slots.map fun e => (e.1, e.2.takenBy (s.claims.entries.take n.toNat)) } }
        { s.claims with entries := s.claims.entries.drop n.toNat })

/-- R145, R146, R148, R156: a raise of kind ISSUES merges into the oldest entry it overlaps or adjoins and frees the others it meets; one
that meets none is appended below 256 entries, and else is refused, a SLID OUT one being counted lost. A satisfaction trims the entry that
holds the ordinal at its end, removes it when it holds that ordinal alone, and leaves it when the ordinal lies inside. A request that fills
the claim list, or frees its 256th place, asks the notice of that edge. -/
def Obligations.IssueClaimsAreRaisedAndSatisfied : Prop :=
  (∀ (c : ClaimList) (k : Key) (first last q : Nat) (cause : ClaimCause) (day : Nat) (older newer : List ClaimEntry)
    (e : ClaimEntry), first ≤ last → c.wf → c.entries = older ++ e :: newer →
    (∀ x ∈ older, x.meets k first last = false) → e.meets k first last = true →
    ∃ a b : Nat,
      c.raiseIssues k first last q cause day =
        ({ c with entries := older ++ { e with body := .issues a b } :: newer.filter fun x => !x.meets k first last },
          true) ∧
      (∀ o : Nat, a ≤ o ∧ o ≤ b ↔
        (first ≤ o ∧ o ≤ last) ∨ ∃ x ∈ c.entries, x.meets k first last = true ∧
          ∃ f g, x.body = .issues f g ∧ f ≤ o ∧ o ≤ g)) ∧
  (∀ (e : ClaimEntry) (k : Key) (first last : Nat), e.meets k first last = true ↔
    e.key = k ∧ ∃ a b, e.body = .issues a b ∧ a ≤ last + 1 ∧ first ≤ b + 1) ∧
  (∀ (c : ClaimList) (k : Key) (first last q : Nat) (cause : ClaimCause) (day : Nat),
    (∀ x ∈ c.entries, x.meets k first last = false) → c.entries.length < 256 →
    c.raiseIssues k first last q cause day = ({ c with entries := c.entries ++ [⟨k, .issues first last, q, cause, day⟩] }, true)) ∧
  (∀ (c : ClaimList) (k : Key) (first last q : Nat) (cause : ClaimCause) (day : Nat),
    (∀ x ∈ c.entries, x.meets k first last = false) → 256 ≤ c.entries.length →
    c.raiseIssues k first last q cause day =
      ({ c with lost := if cause = .slidOut then min (c.lost + (last - first + 1)) 4294967295 else c.lost }, false)) ∧
  (∀ (c : ClaimList) (k : Key) (m a b : Nat) (older newer : List ClaimEntry) (e : ClaimEntry), c.wf →
    c.entries = older ++ e :: newer → e.key = k → e.body = .issues a b → a ≤ m → m ≤ b →
    c.satisfy k m =
      if a = b then ({ c with entries := older ++ newer }, .trimmed)
      else if m = a then ({ c with entries := older ++ { e with body := .issues (m + 1) b } :: newer }, .trimmed)
      else if m = b then ({ c with entries := older ++ { e with body := .issues a (m - 1) } :: newer }, .trimmed)
      else (c, .interior)) ∧
  (∀ (c : ClaimList) (k : Key) (m : Nat),
    (∀ e ∈ c.entries, ∀ a b, e.key = k → e.body = .issues a b → ¬ (a ≤ m ∧ m ≤ b)) → c.satisfy k m = (c, .notFound)) ∧
  ∀ (s : State) (c : ClaimList), s.withClaims c =
    if c.entries.length = 256 ∧ s.claims.entries.length ≠ 256 then
      State.deviceNotice { s with claims := c } .claimListFull .rising (.count 256)
    else if c.entries.length ≠ 256 ∧ s.claims.entries.length = 256 then
      State.deviceNotice { s with claims := c } .claimListFull .falling (.count c.entries.length)
    else { s with claims := c }

/-! The table engine. -/

/-- R160, R163, R164: FIND, SWEEP and PURGE, their checks in order and their acceptance; a walk that starts at slot 8192 completes at once
(the model's reading, notes/assumptions/22.md). -/
def Obligations.LongCommandsAreAccepted : Prop :=
  (∀ (tag : Byte) (op : Operation) (s : State), s.listens → ¬ op.inRange →
    Refuses (op.command tag).1 s (op.command tag).2 tag .invalid .none) ∧
  (∀ (tag : Byte) (op : Operation) (e : EngineContext) (s : State), s.listens → op.inRange → s.engine = some e →
    Refuses (op.command tag).1 s (op.command tag).2 tag .busy (.operationInProgress e.op.kind)) ∧
  (∀ (tag : Byte) (s : State), s.listens → s.engine = none → s.table.day = none →
    Refuses (.sweep tag (.fields ())) s 0xB1#8 tag .notReady (.notReady false true false)) ∧
  (∀ (tag : Byte) (op : Operation) (s : State), s.listens → op.inRange → s.engine = none →
    (op = .sweep → s.table.day ≠ none) → 16 ≤ s.report.usedNonItem →
    Refuses (op.command tag).1 s (op.command tag).2 tag .busy .noReportSpace) ∧
  (∀ (tag : Byte) (op : Operation) (s : State), s.listens → op.inRange → s.engine = none →
    (op = .sweep → s.table.day ≠ none) → s.report.usedNonItem < 16 → op.startSlot < 8192 →
    Takes (op.command tag).1 s (op.command tag).2 tag (.accepted (.operation op.kind op.startSlot))
      { s with
        engine := some ⟨op, op.startSlot, op.startSlot, 0, 0, 0, 0⟩
        report := { s.report with reservedNonItem := s.report.reservedNonItem + 1 } }) ∧
  ∀ (tag : Byte) (f : FindFields) (s : State), s.listens → (Operation.find f).inRange → s.engine = none →
    s.report.usedNonItem < 16 → f.start.toNat = 8192 →
    Takes (.find tag (.fields f)) s 0xB0#8 tag (.accepted (.operation .find 8192))
      { s with report := s.report.fill (.completion ⟨.notSatisfied, 8192, 8192, 0, .find none⟩) }

/-- R162, R167, R170: ABORT of a RUNNING engine fills its completion record, ABORTED, and leaves it IDLE; of an IDLE one it is refused BAD
STATE. An examination that finds the engine not running its operation changes nothing (the model's choice, notes/assumptions/3.md). -/
def Obligations.AbortEndsTheOperation : Prop :=
  (∀ (tag : Byte) (s : State), s.listens → s.engine = none →
    Refuses (.abort tag (.fields ())) s 0xB3#8 tag .badState .none) ∧
  (∀ (tag : Byte) (e : EngineContext) (s : State), s.listens → s.engine = some e →
    Takes (.abort tag (.fields ())) s 0xB3#8 tag (.done (.operation e.op.kind e.current))
      (s.completed .aborted e e.current
        (match e.op with
          | .find _ => .find none
          | .sweep => .sweep e.raised e.owed
          | .purge => .purge e.freed))) ∧
  (∀ s : State, (∀ e f, s.engine = some e → e.op ≠ .find f) → Happens .findExamination s s) ∧
  (∀ s : State, (∀ e, s.engine = some e → e.op ≠ .sweep) → Happens .sweepExamination s s) ∧
  ∀ s : State, (∀ e, s.engine = some e → e.op ≠ .purge) → Happens .purgeExamination s s

/-- R161 to R164, R166: one examination of a FIND stops at a record that meets it, and else goes to the next slot, NOT SATISFIED when that
is 8192; one of a PURGE frees the slot of a tombstone, with the notice of a table no longer full, and leaves any other record. -/
def Obligations.FindAndPurgeExamineOneSlot : Prop :=
  (∀ (s : State) (e : EngineContext) (f : FindFields) (r : TitleRecord), s.table.wf → s.engine = some e →
    e.op = .find f → (e.current, r) ∈ s.table.slots → FindFields.met f r →
    Happens .findExamination s
      (s.completed .normal { e with examined := e.examined + 1 } (e.current + 1)
        (.find (some ⟨e.current, r.key, r.kind, r.status⟩)))) ∧
  (∀ (s : State) (e : EngineContext) (f : FindFields) (r : TitleRecord), s.table.wf → s.engine = some e →
    e.op = .find f → (e.current, r) ∈ s.table.slots → ¬ FindFields.met f r →
    Happens .findExamination s
      (if e.current + 1 < 8192 then
        { s with engine := some { e with current := e.current + 1, examined := e.examined + 1 } }
      else s.completed .notSatisfied { e with examined := e.examined + 1 } 8192 (.find none))) ∧
  (∀ (s : State) (e : EngineContext) (f : FindFields), s.engine = some e → e.op = .find f →
    (∀ x ∈ s.table.slots, x.1 ≠ e.current) →
    Happens .findExamination s
      (if e.current + 1 < 8192 then { s with engine := some { e with current := e.current + 1 } }
      else s.completed .notSatisfied e 8192 (.find none))) ∧
  (∀ (s : State) (e : EngineContext) (r : TitleRecord), s.table.wf → s.engine = some e → e.op = .purge →
    (e.current, r) ∈ s.table.slots → r.status = .withdrawn →
    ∃ (t : TitleTable) (u : State) (e' : EngineContext),
      t = { s.table with slots := s.table.slots.filter fun x => x.1 != e.current } ∧
      e' = { e with current := e.current + 1, examined := e.examined + 1, freed := e.freed + 1 } ∧
      u = (if s.table.slots.length = 8192 then State.deviceNotice { s with table := t } .tableFull .falling .none
        else { s with table := t }) ∧
      Happens .purgeExamination s
        (if e.current + 1 < 8192 then { u with engine := some e' }
        else u.completed .normal e' 8192 (.purge e'.freed))) ∧
  (∀ (s : State) (e : EngineContext) (r : TitleRecord), s.table.wf → s.engine = some e → e.op = .purge →
    (e.current, r) ∈ s.table.slots → r.status ≠ .withdrawn →
    Happens .purgeExamination s
      (if e.current + 1 < 8192 then
        { s with engine := some { e with current := e.current + 1, examined := e.examined + 1 } }
      else s.completed .normal { e with examined := e.examined + 1 } 8192 (.purge e.freed))) ∧
  ∀ (s : State) (e : EngineContext), s.engine = some e → e.op = .purge → (∀ x ∈ s.table.slots, x.1 ≠ e.current) →
    Happens .purgeExamination s
      (if e.current + 1 < 8192 then { s with engine := some { e with current := e.current + 1 } }
      else s.completed .normal e 8192 (.purge e.freed))

/-- R146, R147, R151, R161, R162, R165: one examination of a SWEEP at a free slot, at a MONOGRAPH, and at a SERIAL that is not overdue. An
overdue MONOGRAPH is raised: its entry is appended and it is LISTED, or it is OWED when the list is full. -/
def Obligations.SweepExaminesOneSlot : Prop :=
  (∀ (s : State) (e : EngineContext) (r : TitleRecord) (m : MonographPart) (due day : Nat), s.table.wf →
    s.engine = some e → e.op = .sweep → (e.current, r) ∈ s.table.slots → r.body = .monograph m →
    r.status = .expected → m.due = some due → s.table.day = some day → due + s.claims.grace < day →
    m.claim = .none ∨ m.claim = .owed →
    ∃ (t : TitleTable) (u : State) (e' : EngineContext),
      s.table.putsRecord t e.current
        { r with body := .monograph { m with claim := if s.claims.entries.length < 256 then .listed else .owed } } ∧
      e' = { e with
        current := e.current + 1, examined := e.examined + 1
        raised := if s.claims.entries.length < 256 then e.raised + 1 else e.raised
        owed := if s.claims.entries.length < 256 then e.owed else e.owed + 1 } ∧
      u = (if s.claims.entries.length < 256 then
          State.withClaims { s with table := t }
            { s.claims with
              entries := s.claims.entries ++ [⟨r.key, .monograph (r.q - m.copies), r.q, .overdue, day⟩] }
        else { s with table := t }) ∧
      Happens .sweepExamination s
        (if e.current + 1 < 8192 then { u with engine := some e' }
        else u.completed .normal e' 8192 (.sweep e'.raised e'.owed))) ∧
  (∀ (s : State) (e : EngineContext) (r : TitleRecord), s.table.wf → s.engine = some e → e.op = .sweep →
    (e.current, r) ∈ s.table.slots → s.table.day ≠ none →
    (∀ m, r.body = .monograph m → r.status ≠ .expected ∨
      (∀ due, m.due = some due → s.table.today ≤ due + s.claims.grace) ∨ m.claim = .listed ∨ m.claim = .taken) →
    (∀ p, r.body = .serial p → r.status ≠ .expected ∨ p.dayLag = 0 ∨
      s.table.today ≤ r.lastArrival.getD r.announceDay + p.dayLag) →
    Happens .sweepExamination s
      (if e.current + 1 < 8192 then
        { s with engine := some { e with current := e.current + 1, examined := e.examined + 1 } }
      else s.completed .normal { e with examined := e.examined + 1 } 8192 (.sweep e.raised e.owed))) ∧
  ∀ (s : State) (e : EngineContext), s.engine = some e → e.op = .sweep → (∀ x ∈ s.table.slots, x.1 ≠ e.current) →
    Happens .sweepExamination s
      (if e.current + 1 < 8192 then { s with engine := some { e with current := e.current + 1 } }
      else s.completed .normal e 8192 (.sweep e.raised e.owed))

/-- R146, R152, R156, R165: a SWEEP that reaches an overdue SERIAL raises, one after another, the runs of unflagged incomplete ordinals from
its base up to one past the highest received, in the window. The runs entered are flagged and counted raised; a run that a full claim list
refuses leaves its flags clear and is counted owed; each raise gives the CLAIM LIST FULL edge it causes. The counts of the cells stand. -/
def Obligations.SweepRaisesOverdueSerials : Prop :=
  ∀ (s : State) (e : EngineContext) (r : TitleRecord) (p : SerialPart) (day : Nat), s.table.wf → p.wf →
    s.engine = some e → e.op = .sweep → (e.current, r) ∈ s.table.slots → r.body = .serial p → r.status = .expected →
    0 < p.dayLag → s.table.day = some day →
    (r.lastArrival.getD r.announceDay) + p.dayLag < day →
    ∃ (p' : SerialPart) (t : TitleTable) (rs entered : List (Nat × Nat)) (e' : EngineContext) (u : State),
      s.table.putsRecord t e.current { r with body := .serial p' } ∧
      p' = { p with cells := p'.cells } ∧ p'.cells.length = 64 ∧
      areRunsOf rs (fun x => p.w ≤ x ∧ x < p.w + 64 ∧ (match p.h with
          | some h => x ≤ h + 1
          | none => x = p.w) ∧ (p.cell x).count < r.q ∧ (p.cell x).claimed = false) ∧
      entered = s.claims.entered r.key r.q day .overdue rs ∧
      (∀ x, p.w ≤ x → x < p.w + 64 → (p'.cell x).count = (p.cell x).count ∧
        ((p'.cell x).claimed = true ↔ (p.cell x).claimed = true ∨ ∃ y ∈ entered, y.1 ≤ x ∧ x ≤ y.2)) ∧
      u = { s.claimsAfter r.key r.q (rs.map fun y => .raise y.1 y.2 .overdue) with table := t } ∧
      e' = { e with
        current := e.current + 1, examined := e.examined + 1, raised := e.raised + entered.length
        owed := e.owed + (rs.length - entered.length) } ∧
      Happens .sweepExamination s
        (if e.current + 1 < 8192 then { u with engine := some e' }
        else u.completed .normal e' 8192 (.sweep e'.raised e'.owed))

/-! The lane links. -/

/-- R60, R61, R68, R69: a DISABLED lane takes nothing; any other lane counts a record that fails its check or is not well formed as a link
error; a STOPPED lane takes a HEARTBEAT's report and counts any other record stale. That a record command with a field outside its range
counts as not well formed is the model's reading (notes/assumptions/17.md). -/
def Obligations.IdleLanesOnlyCount : Prop :=
  (∀ (s : State) (l : LaneId) (r : StationRecord), (s.lane l).state = .disabled →
    Happens (eventOf l r) s s ∧ Happens (.linkCheckFailure l) s s ∧ Happens (.recordNotWellFormed l) s s) ∧
  (∀ (s : State) (l : LaneId) (v : Lane), (s.lane l).state ≠ .disabled →
    v = { s.lane l with counters := { (s.lane l).counters with linkErrors := bump (s.lane l).counters.linkErrors } } →
    Happens (.linkCheckFailure l) s (s.setLane l v) ∧ Happens (.recordNotWellFormed l) s (s.setLane l v) ∧
      ∀ r : StationRecord, r.wf = false → Happens (eventOf l r) s (s.setLane l v)) ∧
  (∀ (s : State) (l : LaneId) (b : Belt) (d : Diverter), (s.lane l).state = .stopped →
    Happens (.heartbeat l b d) s (s.setLane l { s.lane l with belt := some b, diverter := some d })) ∧
  ∀ (s : State) (l : LaneId) (r : StationRecord), (s.lane l).state = .stopped → r.wf = true →
    recordType r ≠ .heartbeat →
    Happens (eventOf l r) s
      (s.setLane l { s.lane l with counters := { (s.lane l).counters with stale := bump (s.lane l).counters.stale } })

/-- R63, R87, R88, R92: the hold flag follows its three conditions, and each change of it is told the station and gives a HELD edge; a
lane's records are sent in the order produced, one begins at its production when none is being sent and none waits (the model's reading,
notes/assumptions/7.md); a change of the lane level gives a LEVEL CHANGE. -/
def Obligations.HoldFlagAndLevelFollow : Prop :=
  (∀ v : Lane, v.holdConditions = true ↔ v.queue.length = v.config.depth ∨
    (v.noSpace = true ∧ (v.mode = .normal ∨ v.mode = .dry)) ∨ v.state ≠ .active) ∧
  (∀ (s : State) (l : LaneId), (s.lane l).holdConditions = (s.lane l).hold → s.reevaluate l = s) ∧
  (∀ (s : State) (l : LaneId), (s.lane l).holdConditions = true → (s.lane l).hold = false →
    s.reevaluate l =
      (s.setLane l (Lane.produce { s.lane l with hold := true } .hold)).laneNotice l .held .rising .none) ∧
  (∀ (s : State) (l : LaneId), (s.lane l).holdConditions = false → (s.lane l).hold = true →
    s.reevaluate l =
      (s.setLane l (Lane.produce { s.lane l with hold := false } .release)).laneNotice l .held .falling .none) ∧
  (∀ (v : Lane) (r : LaneOut), v.sending = none → v.outbox = [] → v.produce r = { v with sending := some r }) ∧
  (∀ (v : Lane) (r x : LaneOut), v.sending = some x → v.produce r = { v with outbox := v.outbox ++ [r] }) ∧
  (∀ (s : State) (l : LaneId) (b : LaneLevel), (s.lane l).level = b → s.levelNotice l b = s) ∧
  ∀ (s : State) (l : LaneId) (b : LaneLevel), (s.lane l).level ≠ b →
    s.levelNotice l b = s.laneNotice l .levelChange .event (.level (s.lane l).level)

/-- R66, R67, R74, R173: a SILENT lane. With its sync flag clear any record but a HEARTBEAT is counted stale and restarts the timer, and an
ECHO lane returns it. A HEARTBEAT, and with the sync flag set any record, brings the lane to ACTIVE, where it is then taken. -/
def Obligations.SilentLanesEnterActive : Prop :=
  (∀ (s : State) (l : LaneId) (r : StationRecord) (v : Lane), (s.lane l).state = .silent → (s.lane l).sync = false →
    r.wf = true → recordType r ≠ .heartbeat →
    v = { (s.lane l).heard with counters := { (s.lane l).counters with stale := bump (s.lane l).counters.stale } } →
    Happens (eventOf l r) s (s.setLane l
      (if (s.lane l).mode = .echo then
        Lane.produce { v with test := { v.test with echoed := bump v.test.echoed } } (.echo r)
      else v))) ∧
  ∀ (s : State) (l : LaneId) (r : StationRecord), (s.lane l).state = .silent → r.wf = true →
    (s.lane l).sync = true ∨ recordType r = .heartbeat →
    exec (eventOf l r) s = exec (eventOf l r)
      (((s.setLane l { (s.lane l).heard with state := .active, sync := true }).laneNotice l .silent .falling
        .none).reevaluate l)

/-- R67, R74, R87: a HEARTBEAT taken in ACTIVE; the expiry of the silence timer; the news of report space that reaches a lane. With no timer
running, in DISABLED or STOPPED, or no news on its way, nothing happens (the model's choice, notes/assumptions/3.md). That a lane takes the
oldest of the news on its way is the model's reading (notes/assumptions/10.md). -/
def Obligations.HeartbeatsTimersAndNews : Prop :=
  (∀ (s : State) (l : LaneId) (b : Belt) (d : Diverter), s.acts l (.heartbeat b d) →
    Happens (.heartbeat l b d) s
      ((s.setLane l { (s.lane l).heard with belt := some b, diverter := some d }).feedTest l)) ∧
  (∀ (s : State) (l : LaneId), (s.lane l).state = .active → (s.lane l).silenceTimer ≠ none →
    Happens (.silenceTimerExpiry l) s
      (((s.setLane l { (s.lane l).heard with state := .silent }).laneNotice l .silent .rising .none).reevaluate l)) ∧
  (∀ (s : State) (l : LaneId), (s.lane l).state = .silent → (s.lane l).silenceTimer ≠ none →
    Happens (.silenceTimerExpiry l) s (s.setLane l (s.lane l).heard)) ∧
  (∀ (s : State) (l : LaneId),
    (s.lane l).silenceTimer = none ∨ (s.lane l).state = .disabled ∨ (s.lane l).state = .stopped →
    Happens (.silenceTimerExpiry l) s s) ∧
  (∀ (s : State) (l : LaneId), (s.lane l).news = [] → Happens (.noReportSpaceNews l) s s) ∧
  ∀ (s : State) (l : LaneId) (b : Bool) (rest : List Bool), (s.lane l).news = b :: rest →
    Happens (.noReportSpaceNews l) s ((s.setLane l { s.lane l with noSpace := b, news := rest }).reevaluate l)

/-- R70 to R73, R100: in ACTIVE, a record whose number lies in the 64 below the expected number and names no item it could is counted stale,
and so is any CONFIRM that names no held item; any other breach of sequence is a violation, which stops the lane, with its records and
notices filed in their order. That the runs of a TEST lane stand then (notes/assumptions/18.md), and the records it has not begun to send
(notes/assumptions/26.md), is the model's. For states that no run reaches (a day unset, an item decided without a decision, a slot not
reserved) the values are the model's choice (notes/assumptions/16.md). -/
def Obligations.BreachesAreStaleOrViolations : Prop :=
  (∀ (v : Lane) (sq : Seq), v.stale sq = true ↔
    ∃ (e : Seq) (i : Nat), v.expected = some e ∧ 1 ≤ i ∧ i ≤ 64 ∧ sq + BitVec.ofNat 16 i = e) ∧
  (∀ (s : State) (l : LaneId) (r : StationRecord) (sq : Seq), s.acts l r →
    (r = .atGate sq ∧ (∀ i ∈ (s.lane l).queue, i.sq ≠ sq) ∧ (s.lane l).stale sq = true) ∨
      (∃ o, r = .observation sq o ∧ (s.lane l).namesReading sq = false ∧ (s.lane l).stale sq = true) ∨
      (∃ o, r = .itemEnd sq o ∧ (s.lane l).namesReading sq = false ∧ (s.lane l).stale sq = true) ∨
      (∃ x, r = .confirm sq x ∧ ∀ h, (s.lane l).held = some h → h.item.sq ≠ sq) →
    Happens (eventOf l r) s
      ((s.setLane l { (s.lane l).heard with
        counters := { (s.lane l).counters with stale := bump (s.lane l).counters.stale } }).feedTest l)) ∧
  ∀ (s : State) (l : LaneId) (r : StationRecord) (sq : Seq) (cause : ViolationCause), s.acts l r →
    (r = .itemBegin sq ∧ (s.lane l).readingItem.isSome = true ∧ cause = .beginWhileReading) ∨
      (r = .itemBegin sq ∧ (s.lane l).readingItem = none ∧ (∃ e, (s.lane l).expected = some e ∧ e ≠ sq) ∧
        cause = .sequenceBreak) ∨
      (r = .atGate sq ∧ (∀ i ∈ (s.lane l).queue, i.sq ≠ sq) ∧ (s.lane l).stale sq = false ∧ (s.lane l).queue ≠ [] ∧
        cause = .unknownItem) ∨
      (∃ o, r = .observation sq o ∧ (s.lane l).namesReading sq = false ∧ (s.lane l).stale sq = false ∧
        cause = .unknownItem) ∨
      (∃ o, r = .itemEnd sq o ∧ (s.lane l).namesReading sq = false ∧ (s.lane l).stale sq = false ∧
        cause = .unknownItem) →
    Happens (eventOf l r) s (s.stoppedBy l cause (recordType r) sq)

/-! Items. -/

/-- R70, R71, R86, R133, R185: an ITEM BEGIN in sequence is refused while the hold flag is set or no report slot can be reserved, and is
else admitted: its record joins the queue, its slot is reserved, the open consignment counts it, and ADMIT is sent. -/
def Obligations.ItemsAreRefusedOrAdmitted : Prop :=
  (∀ (s : State) (l : LaneId) (sq : Seq), s.acts l (.itemBegin sq) → (s.lane l).readingItem = none →
    (∀ e, (s.lane l).expected = some e → e = sq) →
    (s.lane l).hold = true ∨ (accounts (s.lane l).mode = true ∧ 496 ≤ s.report.usedItem) →
    Happens (.itemBegin l sq) s
      ((s.setLane l (Lane.produce
        { (s.lane l).heard with
          expected := some sq
          counters := { (s.lane l).counters with refused := bump (s.lane l).counters.refused } }
        (.refuse sq))).feedTest l)) ∧
  (∀ (s : State) (l : LaneId) (sq : Seq), s.acts l (.itemBegin sq) → (s.lane l).readingItem = none →
    (∀ e, (s.lane l).expected = some e → e = sq) → (s.lane l).hold = false → (s.lane l).mode = .test →
    ∃ w : State,
      w = s.setLane l (Lane.produce
        { (s.lane l).heard with
          expected := some (sq + 1#16)
          queue := (s.lane l).queue ++ [⟨l, sq, .reading, [], false, none, none, false⟩]
          counters := { (s.lane l).counters with admitted := bump (s.lane l).counters.admitted } }
        (.admission sq)) ∧
      Happens (.itemBegin l sq) s (((w.levelNotice l (s.lane l).level).reevaluate l).feedTest l)) ∧
  ∀ (s : State) (l : LaneId) (sq : Seq), s.acts l (.itemBegin sq) → (s.lane l).readingItem = none →
    (∀ e, (s.lane l).expected = some e → e = sq) → (s.lane l).hold = false → accounts (s.lane l).mode = true →
    s.report.usedItem < 496 →
    ∃ w : State,
      w = State.setLane
        { s with consign := w.consign, report := { s.report with reservedItem := s.report.reservedItem + 1 } } l
        (Lane.produce
          { (s.lane l).heard with
            expected := some (sq + 1#16)
            queue := (s.lane l).queue ++
              [⟨l, sq, .reading, [], false, (s.consignment l).map (·.number), none, true⟩]
            counters := { (s.lane l).counters with admitted := bump (s.lane l).counters.admitted } }
          (.admission sq)) ∧
      (s.consignment l = none → w.consign = s.consign) ∧
      (∀ c, s.consignment l = some c →
        w.consign = (s.setConsignment l (some { c with counted := min (c.counted + 1) 65535 })).consign) ∧
      Happens (.itemBegin l sq) s (((w.levelNotice l (s.lane l).level).settleReport).reevaluate l)

/-- R8, R89: an OBSERVATION of the READING item joins its list, an IDENT as UNCHECKED; the ninth and later ones are dropped and mark the
item OVERSIZE. -/
def Obligations.ObservationsJoinTheItem : Prop :=
  (∀ (s : State) (l : LaneId) (sq : Seq) (o : Observation) (i : Item), s.acts l (.observation sq o) →
    (s.lane l).readingItem = some i → i.sq = sq →
    Happens (.observation l sq o) s
      ((s.setLane l { (s.lane l).heard with
        queue := (s.lane l).queue.map fun j =>
          if j.state = .reading then
            if j.observations.length < 8 then
              { j with observations := j.observations ++ [match o with
                | .ident x => .ident x .unchecked
                | .weight g => .weight g
                | .size h w d => .size h w d
                | .medium m => .medium m] }
            else { j with oversize := true }
          else j }).feedTest l)) ∧
  ∀ (i : Item) (outcome : ItemOutcome) (outlet : Fin 8) (reason : Reason) (confirm : ConfirmResult) (fault : Bool),
    (i.disposition outcome outlet reason confirm fault).identifiers =
      i.observations.filterMap fun o => match o with
        | .ident x j => some ⟨x.scheme, x.text, decide (j ≠ .unchecked), decide (j = .invalid)⟩
        | .weight _ | .size _ _ _ | .medium _ => none

/-! Identification. -/

/-- R2 to R7, R9: the keys and the slips that texts yield, character by character, with their check characters. That the content of a
trailer keeps the count that its positions hold, though it is disregarded, is the model's choice (notes/assumptions/27.md). -/
def Obligations.IdentifiersYieldTheirKeys : Prop :=
  (∀ (text : List Byte) (k : Key), keyOf ⟨0x01#8, text⟩ = some k ↔
    ∃ ds : List Nat, ds.length = 13 ∧ (∀ d ∈ ds, d ≤ 9) ∧ text = ds.map (fun d => BitVec.ofNat 8 (0x30 + d)) ∧
      k = ⟨.book, ds⟩ ∧ ds.getD 12 0 =
        (10 - ((List.range 12).map fun i => (if i % 2 = 0 then 1 else 3) * ds.getD i 0).sum % 10) % 10) ∧
  (∀ (text : List Byte) (k : Key), keyOf ⟨0x02#8, text⟩ = some k ↔
    ∃ (ds : List Nat) (c : Nat), ds.length = 7 ∧ (∀ d ∈ ds, d ≤ 9) ∧
      text = ds.map (fun d => BitVec.ofNat 8 (0x30 + d)) ++ [if c = 10 then 0x58#8 else BitVec.ofNat 8 (0x30 + c)] ∧
      k = ⟨.serial, ds ++ [c]⟩ ∧
      c = (11 - ((List.range 7).map fun i => (8 - i) * ds.getD i 0).sum % 11) % 11) ∧
  (∀ (text : List Byte) (k : Key), keyOf ⟨0x03#8, text⟩ = some k ↔
    ∃ ds : List Nat, ds.length = 12 ∧ (∀ d ∈ ds, d ≤ 9) ∧ text = ds.map (fun d => BitVec.ofNat 8 (0x30 + d)) ∧
      k = ⟨.localNum, ds⟩ ∧ ds.getD 11 0 =
        (10 - ((List.range 11).map fun i => (if i % 2 = 0 then 1 else 3) * ds.getD i 0).sum % 10) % 10) ∧
  (∀ (text : List Byte) (e : Option Enumeration) (c : SlipContent), Ident.slip? ⟨0x04#8, text, e⟩ = some c ↔
    ∃ ds : List Nat, ds.length = 11 ∧ (∀ d ∈ ds, d ≤ 9) ∧ text = ds.map (fun d => BitVec.ofNat 8 (0x30 + d)) ∧
      (ds.getD 0 0 = 1 ∧ c.trailer = false ∨ ds.getD 0 0 = 2 ∧ c.trailer = true) ∧
      c.publisher = (((((ds.getD 1 0 * 10 + ds.getD 2 0) * 10 + ds.getD 3 0) * 10 + ds.getD 4 0) * 10 +
        ds.getD 5 0) * 10 + ds.getD 6 0) ∧
      c.declared = (ds.getD 7 0 * 10 + ds.getD 8 0) * 10 + ds.getD 9 0 ∧ ds.getD 10 0 =
        (10 - ((List.range 10).map fun i => (if i % 2 = 0 then 1 else 3) * ds.getD i 0).sum % 10) % 10) ∧
  (∀ (scheme : Byte) (text : List Byte), scheme.toNat < 1 ∨ 3 < scheme.toNat → keyOf ⟨scheme, text⟩ = none) ∧
  (∀ (scheme : Byte) (text : List Byte) (e : Option Enumeration), scheme ≠ 0x04#8 →
    Ident.slip? ⟨scheme, text, e⟩ = none) ∧
  ∀ i : Ident, Ident.key? i = keyOf ⟨i.scheme, i.text⟩ ∧
    (judge i = .valid ↔ (Ident.key? i).isSome = true ∨ (Ident.slip? i).isSome = true) ∧ judge i ≠ .unchecked

/-- R10 to R12: what an item's identifiers come to. A slip prevails; else the values of the highest scheme with a valid identifier must
agree, SERIAL before BOOK before LOCAL; with none valid the choice fails. That the value of a slip is its whole content, a trailer's
declared count among it, is the model's choice (notes/assumptions/25.md). -/
def Obligations.KeysAreChosenByScheme : Prop :=
  (∀ (is : List Ident) (c : SlipContent), choose is = .slip c ↔
    (∃ i ∈ is, Ident.slip? i = some c) ∧ ∀ i ∈ is, ∀ x, Ident.slip? i = some x → x = c) ∧
  (∀ (is : List Ident) (k : Key) (e : Option Enumeration), choose is = .key k e ↔
    (∀ i ∈ is, Ident.slip? i = none) ∧ (∃ i ∈ is, Ident.key? i = some k) ∧
    (∀ i ∈ is, ∀ x, Ident.key? i = some x → x.scheme = k.scheme → x = k) ∧
    (∀ i ∈ is, ∀ x, Ident.key? i = some x → x.scheme = .serial → k.scheme = .serial) ∧
    (∀ i ∈ is, ∀ x, Ident.key? i = some x → x.scheme = .book → k.scheme ≠ .localNum) ∧
    e = (is.filter fun i => decide (Ident.key? i = some k)).findSome? (·.enumeration)) ∧
  (∀ is : List Ident, choose is = .failed .noIdentifier ↔ is = []) ∧
  (∀ is : List Ident, choose is = .failed .checkFail ↔ is ≠ [] ∧ ∀ i ∈ is, judge i = .invalid) ∧
  ∀ (is : List Ident) (r : Reason), choose is = .failed r → r = .noIdentifier ∨ r = .checkFail ∨ r = .conflict

/-! Decisions. -/

/-- R29, R109, R111, R113, R122 to R124, R134: decisions that commit nothing: a failed choice, with its CHECK FAIL event, a key without a
record, and a tombstone. The desk is the steering entry of the publisher code mod 64. -/
def Obligations.DecisionsThatCommitNothing : Prop :=
  (∀ (s : State) (l : LaneId) (sq : Seq) (o : Option Observation) (i : Item) (r : Reason), s.reads l sq o i →
    choose (i.ended o).idents = .failed r →
    Decides s l sq o (s.plainDecision l .query 0 r)
      (if r = .checkFail then [.lane l .checkFail .event (.checkFail sq (i.ended o).idents.length)] else [])
      { s with consign := (s.countMember l i.consignment (decide ((s.lane l).mode = .normal)) r).consign }) ∧
  (∀ (s : State) (l : LaneId) (sq : Seq) (o : Option Observation) (i : Item) (k : Key) (e : Option Enumeration),
    s.reads l sq o i → choose (i.ended o).idents = .key k e → (∀ x ∈ s.table.slots, x.2.key ≠ k) →
    Decides s l sq o { s.plainDecision l .query 0 .unannounced with key := some k } []
      { s with consign := (s.countMember l i.consignment (decide ((s.lane l).mode = .normal)) .unannounced).consign }) ∧
  (∀ (s : State) (l : LaneId) (sq : Seq) (o : Option Observation) (i : Item) (e : Option Enumeration) (n : Nat)
    (r : TitleRecord), s.reads l sq o i → choose (i.ended o).idents = .key r.key e → s.table.wf →
    (n, r) ∈ s.table.slots → r.status = .withdrawn →
    Decides s l sq o { s.plainDecision l .return_ 0 .withdrawn with key := some r.key } [] s) ∧
  (∀ (d : DecisionUnit) (p : Nat) (i : Fin 64), i.val = p % 64 → d.desk p = d.steering[i]) ∧
  ∀ (m : OutletMap), m.outlet .preserve none = m.preserve ∧ m.outlet .reading none = m.reading ∧
    m.outlet .transfer none = m.transfer ∧ m.outlet .serials none = m.serials ∧ m.outlet .return_ none = m.return_ ∧
    m.outlet .runout none = m.runout ∧ m.outlet .query (some 0) = m.query0 ∧ m.outlet .query (some 1) = m.query1 ∧
    m.outlet .query (some 2) = m.query2 ∧ m.outlet .query (some 3) = m.query3

/-- R33, R107, R109, R112, R114, R116 to R120, R149: a copy of a MONOGRAPH in a NORMAL lane is MATCHED and given the next accession number,
SURPLUS beyond Q, or NO ACCESSION, committing nothing, when no number is available, the first of them raising ACCESSION EXHAUSTED; in a DRY
lane it is decided and committed nowhere. The day stamped is 0 while the day is unset, which no run reaches (the model's choice,
notes/assumptions/16.md). -/
def Obligations.MonographCopiesAreDecided : Prop :=
  (∀ (s : State) (l : LaneId) (sq : Seq) (o : Option Observation) (i : Item) (e : Option Enumeration) (n a : Nat)
    (r : TitleRecord) (m : MonographPart) (ch : Chute), s.readsTitle l sq o i e n r → r.body = .monograph m →
    (s.lane l).mode = .normal → m.copies + 1 ≤ r.q → r.plan[m.copies]? = some ch → s.decision.next = some a →
    a ≤ 99999999 →
    ∃ t : TitleTable, s.table.putsRecord t n (r.arrived m s.table.today) ∧
      Decides s l sq o
        { s.plainDecision l ch.cls 0 .matched with
          key := some r.key, copy := some (m.copies + 1), accession := some a
          satisfied := decide (r.q ≤ min (m.copies + 1) 15 ∧ m.claim = .listed)
          claimed := decide (r.q ≤ min (m.copies + 1) 15 ∧ m.claim = .taken) } []
        { s.withClaims (s.claims.copyArrived r m) with
          table := t
          decision := { s.decision with next := some (a + 1), last := some a }
          consign := (s.countMember l i.consignment true .matched).consign }) ∧
  (∀ (s : State) (l : LaneId) (sq : Seq) (o : Option Observation) (i : Item) (e : Option Enumeration) (n : Nat)
    (r : TitleRecord) (m : MonographPart), s.readsTitle l sq o i e n r → r.body = .monograph m →
    (s.lane l).mode = .normal → r.q < m.copies + 1 →
    ∃ t : TitleTable, s.table.putsRecord t n (r.arrived m s.table.today) ∧
      Decides s l sq o
        { s.plainDecision l .return_ 0 .surplus with
          key := some r.key, copy := some (m.copies + 1)
          satisfied := decide (r.q ≤ min (m.copies + 1) 15 ∧ m.claim = .listed)
          claimed := decide (r.q ≤ min (m.copies + 1) 15 ∧ m.claim = .taken) } []
        { s.withClaims (s.claims.copyArrived r m) with
          table := t, consign := (s.countMember l i.consignment true .surplus).consign }) ∧
  (∀ (s : State) (l : LaneId) (sq : Seq) (o : Option Observation) (i : Item) (e : Option Enumeration) (n : Nat)
    (r : TitleRecord) (m : MonographPart), s.readsTitle l sq o i e n r → r.body = .monograph m →
    (s.lane l).mode = .normal → m.copies + 1 ≤ r.q → (∀ a, s.decision.next = some a → 99999999 < a) →
    Decides s l sq o
      { s.plainDecision l .query r.publisher .noAccession with key := some r.key, copy := some (m.copies + 1) }
      (s.exhaustionFilings l sq) { s with decision := { s.decision with exhaustNotice := true } }) ∧
  ∀ (s : State) (l : LaneId) (sq : Seq) (o : Option Observation) (i : Item) (e : Option Enumeration) (n : Nat)
    (r : TitleRecord) (m : MonographPart) (cls : ItemClass) (reason : Reason), s.readsTitle l sq o i e n r →
    r.body = .monograph m → (s.lane l).mode = .dry →
    (m.copies + 1 ≤ r.q ∧ reason = .matched ∧ (∃ ch, r.plan[m.copies]? = some ch ∧ cls = ch.cls)) ∨
      (r.q < m.copies + 1 ∧ reason = .surplus ∧ cls = .return_) →
    Decides s l sq o { s.plainDecision l cls 0 reason with key := some r.key, copy := some (m.copies + 1) } [] s

/-- R38, R39, R41, R46, R55, R56, R115, R118: an issue of a SERIAL that commits nothing: ENUMERATION ERROR and ENUMERATION SUSPECT in any
lane, NO ACCESSION in a NORMAL one, the first of them raising ACCESSION EXHAUSTED, and every result in a DRY one. -/
def Obligations.IssuesThatCommitNothing : Prop :=
  (∀ (s : State) (l : LaneId) (sq : Seq) (o : Option Observation) (i : Item) (e : Option Enumeration) (n : Nat)
    (r : TitleRecord) (p : SerialPart), s.readsTitle l sq o i e n r → r.body = .serial p → p.misread e →
    Decides s l sq o { s.plainDecision l .query r.publisher .enumerationError with key := some r.key } [] s) ∧
  (∀ (s : State) (l : LaneId) (sq : Seq) (o : Option Observation) (i : Item) (x : Enumeration) (n : Nat)
    (r : TitleRecord) (p : SerialPart), s.readsTitle l sq o i (some x) n r → r.body = .serial p →
    ¬ p.misread (some x) → p.tooFar (p.firstOrdinal x) →
    Decides s l sq o
      { s.plainDecision l .query r.publisher .enumerationSuspect with
        key := some r.key, range := some (p.firstOrdinal x, p.firstOrdinal x + x.span.toNat - 1) } [] s) ∧
  (∀ (s : State) (l : LaneId) (sq : Seq) (o : Option Observation) (i : Item) (x : Enumeration) (n : Nat)
    (r : TitleRecord) (p : SerialPart), s.readsTitle l sq o i (some x) n r → r.body = .serial p →
    ¬ p.misread (some x) → ¬ p.tooFar (p.firstOrdinal x) → p.w ≤ p.firstOrdinal x + x.span.toNat - 1 →
    (s.lane l).mode = .normal → p.copyOrdinal (p.firstOrdinal x) ≤ r.q → (∀ a, s.decision.next = some a → 99999999 < a) →
    Decides s l sq o
      { s.plainDecision l .query r.publisher .noAccession with
        key := some r.key, copy := some (p.copyOrdinal (p.firstOrdinal x))
        range := some (p.firstOrdinal x, p.firstOrdinal x + x.span.toNat - 1) }
      (s.exhaustionFilings l sq) { s with decision := { s.decision with exhaustNotice := true } }) ∧
  ∀ (s : State) (l : LaneId) (sq : Seq) (o : Option Observation) (i : Item) (x : Enumeration) (n : Nat)
    (r : TitleRecord) (p : SerialPart) (cls : ItemClass) (reason : Reason) (copy : Option Nat),
    s.readsTitle l sq o i (some x) n r → r.body = .serial p → ¬ p.misread (some x) → ¬ p.tooFar (p.firstOrdinal x) →
    (s.lane l).mode = .dry →
    (p.firstOrdinal x + x.span.toNat - 1 < p.w ∧ reason = .lateIssue ∧ cls = .serials ∧ copy = none) ∨
      (p.w ≤ p.firstOrdinal x + x.span.toNat - 1 ∧ copy = some (p.copyOrdinal (p.firstOrdinal x)) ∧
        p.copyOrdinal (p.firstOrdinal x) ≤ r.q ∧ reason = .matched ∧
        ∃ ch, r.plan[p.copyOrdinal (p.firstOrdinal x) - 1]? = some ch ∧ cls = ch.cls) ∨
      (p.w ≤ p.firstOrdinal x + x.span.toNat - 1 ∧ copy = some (p.copyOrdinal (p.firstOrdinal x)) ∧
        r.q < p.copyOrdinal (p.firstOrdinal x) ∧ reason = .surplus ∧ cls = .return_) →
    Decides s l sq o
      { s.plainDecision l cls 0 reason with
        key := some r.key, copy := copy, range := some (p.firstOrdinal x, p.firstOrdinal x + x.span.toNat - 1) } [] s

/-- R45 to R54, R115 to R117, R145, R146, R148, R156: an issue of a SERIAL committed in a NORMAL lane. A LATE ISSUE leaves the window and
satisfies its ordinals one after another; any other satisfies those behind, raises the runs that slide out, marks the covered ordinals and
satisfies the flagged cells it completes, raises the runs of gaps and flags those entered, and advances the window; it is MATCHED with the
next accession number or SURPLUS. The claim list is what these requests make of it in their order, each with its CLAIM LIST FULL edge, and
their answers give the two indications. The day stamped is 0 while the day is unset, which no run reaches (the model's choice,
notes/assumptions/16.md). -/
def Obligations.IssuesAreCommitted : Prop :=
  (∀ (s : State) (l : LaneId) (sq : Seq) (o : Option Observation) (i : Item) (x : Enumeration) (n first last : Nat)
    (r : TitleRecord) (p : SerialPart) (rs : List ClaimRequest) (satisfied claimed : Bool),
    s.readsTitle l sq o i (some x) n r → r.body = .serial p → ¬ p.misread (some x) → first = p.firstOrdinal x →
    last = first + x.span.toNat - 1 → ¬ p.tooFar first → last < p.w → (s.lane l).mode = .normal →
    rs = p.behindRequests first last → s.claims.indicates r.key r.q s.table.today rs satisfied claimed →
    ∃ t : TitleTable, s.table.putsRecord t n { r with lastArrival := some s.table.today } ∧
      Decides s l sq o
        { s.plainDecision l .serials 0 .lateIssue with
          key := some r.key, range := some (first, last), satisfied := satisfied, claimed := claimed } []
        { s.claimsAfter r.key r.q rs with table := t }) ∧
  ∀ (s : State) (l : LaneId) (sq : Seq) (o : Option Observation) (i : Item) (x : Enumeration) (n first last : Nat)
    (r : TitleRecord) (p : SerialPart) (cls : ItemClass) (reason : Reason) (accession : Option Nat)
    (slid gaps : List (Nat × Nat)) (before rs : List ClaimRequest) (satisfied claimed : Bool),
    s.readsTitle l sq o i (some x) n r → r.body = .serial p → p.wf → 1 ≤ r.q → ¬ p.misread (some x) →
    first = p.firstOrdinal x → last = first + x.span.toNat - 1 → ¬ p.tooFar first → p.w ≤ last →
    (s.lane l).mode = .normal →
    (p.copyOrdinal first ≤ r.q ∧ reason = .matched ∧
        (∃ ch, r.plan[p.copyOrdinal first - 1]? = some ch ∧ cls = ch.cls) ∧
        ∃ a, s.decision.next = some a ∧ a ≤ 99999999 ∧ accession = some a) ∨
      (r.q < p.copyOrdinal first ∧ reason = .surplus ∧ cls = .return_ ∧ accession = none) →
    areRunsOf slid (p.slidesOut r.q last) → areRunsOf gaps (p.leavesGap r.q first last) →
    before = p.requests r.q first last slid [] → rs = p.requests r.q first last slid gaps →
    s.claims.indicates r.key r.q s.table.today rs satisfied claimed →
    ∃ (t : TitleTable) (p' : SerialPart),
      p.arrivedAs p' r.q first last
        ((s.claims.after r.key r.q s.table.today before).entered r.key r.q s.table.today .gap gaps) ∧
      s.table.putsRecord t n { r with lastArrival := some s.table.today, body := .serial p' } ∧
      Decides s l sq o
        { s.plainDecision l cls 0 reason with
          key := some r.key, copy := some (p.copyOrdinal first), range := some (first, last), accession := accession
          satisfied := satisfied, claimed := claimed } []
        { s.claimsAfter r.key r.q rs with
          table := t
          decision := (match accession with
            | some a => { s.decision with next := some (a + 1), last := some a }
            | none => s.decision)
          consign := (s.countMember l i.consignment true reason).consign }

/-- R110, R131 to R136, R140: a slip. Its own membership is taken back; a plain slip does nothing more; a header closes the consignment
before it UNTERMINATED and opens its own, or finds no slot and opens none; a trailer closes the open consignment or counts as stray. Each
gives the SLIP SEEN event with what was done, behind the summary it filled. That SLIP SEEN reports the count positions of a trailer as they
were read is the model's choice (notes/assumptions/27.md), and so are the values in states that no run reaches (a day unset, a slot not
reserved; notes/assumptions/16.md). -/
def Obligations.SlipsOpenAndCloseConsignments : Prop :=
  (∀ (s : State) (l : LaneId) (number : Option Nat) (normal : Bool) (r : Reason) (c : Consignment),
    s.consignment l = some c → number = some c.number →
    s.countMember l number normal r = s.setConsignment l (some
      (if r = .slip ∨ r = .slipHeader ∨ r = .slipTrailer then { c with counted := c.counted - 1 }
      else if normal = true ∧ r = .matched then { c with matched := min (c.matched + 1) 65535 }
      else if normal = true ∧ r = .surplus then { c with surplus := min (c.surplus + 1) 65535 }
      else if normal = true ∧ r = .unannounced then { c with unannounced := min (c.unannounced + 1) 65535 }
      else if normal = true ∧ r = .checkFail then { c with checkFails := min (c.checkFails + 1) 65535 } else c))) ∧
  (∀ (s : State) (l : LaneId) (number : Option Nat) (normal : Bool) (r : Reason),
    (∀ c, s.consignment l = some c → number ≠ some c.number) → s.countMember l number normal r = s) ∧
  (∀ (s : State) (l : LaneId) (sq : Seq) (o : Option Observation) (i : Item) (c : SlipContent), s.reads l sq o i →
    choose (i.ended o).idents = .slip c →
    (s.lane l).config.slip = .off ∨ ((s.lane l).config.slip = .header ∧ c.trailer = true) →
    Decides s l sq o (s.plainDecision l .runout 0 .slip) [.lane l .slipSeen .event (.slip sq c .plain)]
      { s with consign := (s.countMember l i.consignment true .slip).consign }) ∧
  (∀ (s w : State) (l : LaneId) (sq : Seq) (o : Option Observation) (i : Item) (c : SlipContent) (opened : Option Consignment)
    (room : Bool), s.reads l sq o i → choose (i.ended o).idents = .slip c → (s.lane l).config.slip ≠ .off →
    c.trailer = false → w = s.countMember l i.consignment true .slipHeader →
    (w.consignment l = none ∨ 1 ≤ s.report.reservedItem) → (room = true ↔ s.report.usedItem < 496) →
    opened = (if room then
      some ⟨s.consign.nextNumber, c.publisher, c.declared, 0, 0, 0, 0, 0, s.table.today, decide ((s.lane l).mode = .dry)⟩
      else none) →
    Decides s l sq o { s.plainDecision l .runout 0 .slipHeader with notOpened := !room }
      ((w.consignment l).toList.map (fun x => .item (.summary ⟨l, x, .unterminated, s.table.today, x.overDeclared⟩)) ++
        (if room then [.reserve] else []) ++
        [.lane l .slipSeen .event (.slip sq c (if room then .opened s.consign.nextNumber else .notOpened))])
      { s with consign := { (s.setConsignment l opened).consign with
        nextNumber := if room then (if s.consign.nextNumber = 65535 then 1 else s.consign.nextNumber + 1)
          else s.consign.nextNumber } }) ∧
  (∀ (s w : State) (l : LaneId) (sq : Seq) (o : Option Observation) (i : Item) (c : SlipContent) (x : Consignment)
    (cause : CloseCause), s.reads l sq o i → choose (i.ended o).idents = .slip c →
    (s.lane l).config.slip = .headerAndTrailer → c.trailer = true → w = s.countMember l i.consignment true .slipTrailer →
    w.consignment l = some x → (c.publisher = x.publisher ∧ cause = .trailer ∨
      c.publisher ≠ x.publisher ∧ cause = .trailerMismatch) →
    Decides s l sq o (s.plainDecision l .runout 0 .slipTrailer)
      [.item (.summary ⟨l, x, cause, s.table.today, x.overDeclared⟩),
        .lane l .slipSeen .event (.slip sq c (.closed x.number cause))]
      { s with consign := (s.setConsignment l none).consign }) ∧
  ∀ (s : State) (l : LaneId) (sq : Seq) (o : Option Observation) (i : Item) (c : SlipContent), s.reads l sq o i →
    choose (i.ended o).idents = .slip c → (s.lane l).config.slip = .headerAndTrailer → c.trailer = true →
    s.consignment l = none →
    ∃ v : Vector Nat 8, v[l] = bump s.consign.stray[l] ∧ (∀ k : LaneId, k ≠ l → v[k] = s.consign.stray[k]) ∧
      Decides s l sq o (s.plainDecision l .runout 0 .slipTrailer)
        [.lane l .slipSeen .event (.slip sq c .noConsignment)] { s with consign := { s.consign with stray := v } }

/-! Test lanes. -/

/-- R173, R175: an ECHO lane in ACTIVE returns every record and does nothing else with it; a TEST lane in ACTIVE sends TEST ITEMs while
fewer than four are outstanding, the value of the generator with its check digit, made wrong once by the inject flag. -/
def Obligations.EchoesAndTestItems : Prop :=
  (∀ (s : State) (l : LaneId) (r : StationRecord), (s.lane l).state = .active → (s.lane l).mode = .echo → r.wf = true →
    Happens (eventOf l r) s (s.setLane l (Lane.produce
      { (s.lane l).heard with
        belt := (match r with
          | .heartbeat b _ => some b
          | _ => (s.lane l).belt)
        diverter := (match r with
          | .heartbeat _ d => some d
          | _ => (s.lane l).diverter)
        test := { (s.lane l).test with echoed := bump (s.lane l).test.echoed } } (.echo r)))) ∧
  (∀ (s : State) (l : LaneId),
    (s.lane l).mode ≠ .test ∨ (s.lane l).state ≠ .active ∨ 4 ≤ (s.lane l).test.outstanding.length →
    s.feedTest l = s) ∧
  (∀ (s : State) (l : LaneId) (t : TestUnit), (s.lane l).mode = .test → (s.lane l).state = .active →
    t = (s.lane l).test → t.outstanding.length < 4 →
    s.feedTest l = (s.setLane l (Lane.produce
      { s.lane l with test := { t with
          outstanding := t.outstanding ++ [⟨t.generator, t.inject⟩]
          inject := false
          generator := generatorStep t.generator
          sent := bump t.sent } }
      (.testItem t.generator (if t.inject then (testCheck t.generator + 1) % 10 else testCheck t.generator)))).feedTest l) ∧
  (∀ g : BitVec 15, (generatorStep g).toNat =
    2 * g.toNat % 32768 + if g.getLsbD 14 = g.getLsbD 13 then 0 else 1) ∧
  ∀ v : BitVec 15, ∃ a b c d e : Nat, a < 10 ∧ b < 10 ∧ c < 10 ∧ d < 10 ∧ e < 10 ∧
    v.toNat = (((a * 10 + b) * 10 + c) * 10 + d) * 10 + e ∧
    testCheck v = (10 - (36 + (a + 3 * b + c + 3 * d + e)) % 10) % 10 ∧
    testIdentifier v = [9, 9, 0, 0, 0, 0, a, b, c, d, e, testCheck v].map fun x => BitVec.ofNat 8 (0x30 + x)

/-- R90, R176 to R178: the ITEM END of a TEST lane compares the first LOCAL identifier with the oldest outstanding value, counts the result,
follows the sync state, and decides the item to the RUNOUT outlet. That the decision has no reason is the model's reading
(notes/assumptions/15.md). -/
def Obligations.TestReadingsAreCompared : Prop :=
  ∀ (s : State) (l : LaneId) (sq : Seq) (o : Option Observation) (i : Item) (t t' : TestUnit) (x : Option Ident)
    (r : TestResult), s.acts l (.itemEnd sq o) → (s.lane l).mode = .test → (s.lane l).readingItem = some i → i.sq = sq →
    t = (s.lane l).test → x = (i.ended o).idents.find? (fun y => y.scheme == 0x03#8) →
    (t.outstanding = [] ∧ r = .error ∨
      ∃ (v : BitVec 15) (rest : List Outstanding), t.outstanding = ⟨v, false⟩ :: rest ∧
        ((∃ y, x = some y ∧ judge y = .valid ∧ y.text = testIdentifier v) ∧ r = .correct ∨
          (¬ ∃ y, x = some y ∧ judge y = .valid ∧ y.text = testIdentifier v) ∧ r = .error) ∨
      ∃ (v : BitVec 15) (rest : List Outstanding), t.outstanding = ⟨v, true⟩ :: rest ∧
        ((∃ y, x = some y ∧ judge y = .invalid) ∧ r = .injectedDetected ∨
          (¬ ∃ y, x = some y ∧ judge y = .invalid) ∧ r = .error)) →
    t' = { t with
      outstanding := t.outstanding.tail
      unsolicited := if t.outstanding = [] then bump t.unsolicited else t.unsolicited
      correct := if r = .correct then bump t.correct else t.correct
      errors := if r = .error then bump t.errors else t.errors
      injectedDetected := if r = .injectedDetected then bump t.injectedDetected else t.injectedDetected
      correctRun := if r = .error then 0 else min (t.correctRun + 1) 4
      errorRun := if r = .error then min (t.errorRun + 1) 2 else 0
      inSync := if r = .error then t.inSync && decide (t.errorRun + 1 < 2) else t.inSync || decide (4 ≤ t.correctRun + 1) } →
    ∃ (d : Decision) (w : State),
      d = { cls := .runout, desk := none, outlet := (s.lane l).config.outlets.runout, reason := none, key := none, copy := none
            range := none, accession := none, dry := false, satisfied := false, claimed := false, notOpened := false } ∧
      w = s.setLane l { (s.lane l).heard with
        queue := (s.lane l).queue.map fun j =>
          if j.state = .reading then (j.ended o).settled ((i.ended o).observations.map HeldObservation.judged) d else j
        counters := { (s.lane l).counters with decided := bump (s.lane l).counters.decided }
        test := t' } ∧
      Happens (.itemEnd l sq o) s
        ((if t'.inSync = t.inSync then w
          else w.laneNotice l .testSync (if t'.inSync then .rising else .falling)
            (match t.outstanding with
              | [] => .none
              | y :: _ => .testValue y.value)).feedTest l)

/-! At the gate. -/

/-- R99 to R101: the closing of a confirm window with a result empties the hold, follows the fault count, fills the held item's record, and
tells the rise of the DIVERTER FAULT level, behind the record (the model's choice, notes/assumptions/9.md); CONFIRM and the confirm timer
close it so. An expiry with no window open changes nothing (the model's choice, notes/assumptions/3.md). For states that no run reaches (a
day unset, an item decided without a decision, a slot not reserved) the values are the model's choice (notes/assumptions/16.md). -/
def Obligations.ConfirmWindowsClose : Prop :=
  (∀ (s : State) (l : LaneId) (r : ConfirmResult), (s.lane l).held = none → s.closeWindow l r = s) ∧
  (∀ (s : State) (l : LaneId) (r : ConfirmResult) (h : HeldItem), (s.lane l).held = some h →
    s.closeWindow l r = (s.setLane l ((s.lane l).windowClosed r)).files (s.windowFilings l r)) ∧
  (∀ (s : State) (l : LaneId) (sq : Seq) (x : Byte) (h : HeldItem) (r : ConfirmResult), s.acts l (.confirm sq x) →
    (s.lane l).held = some h → h.item.sq = sq → r = (if x.toNat = h.outlet.val then .confirmed else .misrouted) →
    Happens (.confirm l sq x) s
      (((s.setLane l ((s.lane l).windowClosed r).heard).files (s.windowFilings l r)).feedTest l)) ∧
  (∀ (s : State) (l : LaneId) (h : HeldItem), (s.lane l).held = some h →
    Happens (.confirmTimerExpiry l) s
      (((s.setLane l ((s.lane l).windowClosed .noConfirm)).files (s.windowFilings l .noConfirm)).feedTest l)) ∧
  ∀ (s : State) (l : LaneId), (s.lane l).held = none → Happens (.confirmTimerExpiry l) s s

/-- R81, R92 to R99, R102, R103, R172: an AT GATE closes the window NO CONFIRM and passes over the items ahead as MISSING. A DECIDED item is
diverted to its outlet and held, in a DRY lane to RUNOUT; a READING one is LATE, and a DECIDED one under the DIVERTER FAULT level goes to
the run-out, both to RUNOUT and not held. With an empty queue it is a PHANTOM. That the rise of DIVERTER FAULT stands behind the held item's
record and before the records that follow is the model's choice (notes/assumptions/9.md). For states that no run reaches (a day unset, an
item decided without a decision, a slot not reserved) the values are the model's choice (notes/assumptions/16.md). -/
def Obligations.GatesPairItems : Prop :=
  (∀ (s w : State) (l : LaneId) (sq : Seq) (ahead rest : List Item) (i : Item) (d : Decision) (v : Lane),
    s.gates l sq ahead i rest → v = (s.lane l).cut ahead rest → i.state ≠ .reading → v.faultLevel = false →
    i.decision = some d → (s.lane l).mode ≠ .dry →
    w = (s.setLane l (Lane.produce
      { v with
        held := some ⟨{ i with state := .confirming }, d.outlet, v.config.confirm⟩
        counters := { v.counters with diverted := bump v.counters.diverted } } (.divert sq d.outlet))).files
      (s.windowFilings l .noConfirm ++ (s.missingRecords l ahead).map .item) →
    Happens (.atGate l sq) s (((w.levelNotice l (s.lane l).level).reevaluate l).feedTest l)) ∧
  (∀ (s w : State) (l : LaneId) (sq : Seq) (ahead rest : List Item) (i : Item) (v : Lane),
    s.gates l sq ahead i rest → v = (s.lane l).cut ahead rest → i.state ≠ .reading → v.faultLevel = false →
    (s.lane l).mode = .dry →
    w = (s.setLane l (Lane.produce
      { v with
        held := some ⟨{ i with state := .confirming }, v.config.outlets.runout, v.config.confirm⟩
        counters := { v.counters with runOut := bump v.counters.runOut } } (.divert sq v.config.outlets.runout))).files
      (s.windowFilings l .noConfirm ++ (s.missingRecords l ahead).map .item) →
    Happens (.atGate l sq) s (((w.levelNotice l (s.lane l).level).reevaluate l).feedTest l)) ∧
  (∀ (s w : State) (l : LaneId) (sq : Seq) (ahead rest : List Item) (i : Item) (v : Lane),
    s.gates l sq ahead i rest → v = (s.lane l).cut ahead rest → i.state = .reading →
    w = (s.setLane l (Lane.produce
      { v with counters := { v.counters with late := bump v.counters.late, runOut := bump v.counters.runOut } }
      (.divert sq v.config.outlets.runout))).files
      (s.windowFilings l .noConfirm ++ (s.missingRecords l ahead ++ s.runOutRecords l i .late false).map .item) →
    Happens (.atGate l sq) s (((w.levelNotice l (s.lane l).level).reevaluate l).feedTest l)) ∧
  (∀ (s w : State) (l : LaneId) (sq : Seq) (ahead rest : List Item) (i : Item) (v : Lane),
    s.gates l sq ahead i rest → v = (s.lane l).cut ahead rest → i.state ≠ .reading → v.faultLevel = true →
    w = (s.setLane l (Lane.produce { v with counters := { v.counters with runOut := bump v.counters.runOut } }
      (.divert sq v.config.outlets.runout))).files
      (s.windowFilings l .noConfirm ++
        (s.missingRecords l ahead ++ s.runOutRecords l i (i.reasonOr .incomplete) true).map .item) →
    Happens (.atGate l sq) s (((w.levelNotice l (s.lane l).level).reevaluate l).feedTest l)) ∧
  ∀ (s w : State) (l : LaneId) (sq : Seq) (v : Lane), s.acts l (.atGate sq) → (s.lane l).queue = [] →
    (s.lane l).stale sq = false → v = ((s.lane l).windowClosed .noConfirm).heard →
    w = (s.setLane l (Lane.produce
      { v with counters := { v.counters with phantom := bump v.counters.phantom, runOut := bump v.counters.runOut } }
      (.divert sq v.config.outlets.runout))).files (s.windowFilings l .noConfirm) →
    Happens (.atGate l sq) s ((w.laneNotice l .phantom .event (.item sq)).feedTest l)

/-! Invariants. -/

/-- Every invariant below holds right after reset. The reset state is the model's reading of power-on (notes/assumptions/4.md,
notes/assumptions/7.md, notes/assumptions/10.md). -/
def Obligations.InvariantsHoldAtReset : Prop :=
  State.reset.accountWf ∧ State.reset.table.recordsWf ∧ State.reset.decision.wf ∧ State.reset.lanesWf ∧
  State.reset.lanesInRange ∧ State.reset.consignWf ∧ State.reset.reportWf ∧ State.reset.newsWf ∧ State.reset.sendWf ∧
  State.reset.lineWf

/-- R16, R17, R19, R33, R42, R43: every step keeps the Title Table in its form: slots rising and below 8192, no two records of one key; and,
with the day in range, every field of each record within the bounds of R16. -/
def Obligations.TitleTableIsKept : Prop :=
  ∀ s t : State, s.table.wf → step s = .next t → t.table.wf ∧ (s.table.recordsWf → t.table.recordsWf)

/-- R144, R149: every step keeps the claim list in its form, at most 256 entries with no two of one key that overlap or adjoin, and in
agreement with the claim states of the table. -/
def Obligations.ClaimListIsKept : Prop :=
  ∀ s t : State, s.accountWf → step s = .next t → t.accountWf

/-- R107, R117, R126: every step keeps the accession counter: the next number present exactly while the base is set, within 1 to
100,000,000, and above the last issued. -/
def Obligations.AccessionCounterIsKept : Prop :=
  ∀ s t : State, s.decision.wf → step s = .next t → t.decision.wf

/-- R83, R85, R87, R101, R174: every step keeps every lane in its form: a lane out of service holds no item, the queue is within the depth
and its numbers successive, only its last item is READING, the hold flag follows its conditions, and no record waits to be sent while none
is being sent; the fault count and the test unit within their ranges. That a record begins at its production when nothing is being sent is
the model's reading (notes/assumptions/7.md). -/
def Obligations.LanesAreKept : Prop :=
  (∀ s t : State, s.lanesWf → step s = .next t → t.lanesWf) ∧
  ∀ s t : State, s.lanesInRange → step s = .next t → t.lanesInRange

/-- R130, R137, R185: every step keeps the consignments: numbers within 1 to 65535, none open on a lane out of service; and the report
queue: its slots within their bounds, a slot reserved for each item and each open consignment, its two conditions as the unreserved slots
give them, and every lane told, once the news on its way has reached it (the model's reading, notes/assumptions/10.md). -/
def Obligations.ReportSpaceIsKept : Prop :=
  (∀ s t : State, s.consignWf → s.lanesWf → step s = .next t → t.consignWf) ∧
  (∀ s t : State, s.reportWf → s.consignWf → s.lanesWf → step s = .next t → t.reportWf) ∧
  ∀ s t : State, s.newsWf → step s = .next t → t.newsWf

/-- R184, R186, R187: every step keeps the sending: the send point marks a filled record, the hold timer runs exactly while records wait,
the records in transmission are due, and the line is free only when no reply waits and no batch is ready. -/
def Obligations.SendingIsKept : Prop :=
  (∀ s t : State, s.sendWf → step s = .next t → t.sendWf) ∧
  ∀ s t : State, s.lineWf → step s = .next t → t.lineWf
end

