-- ==== Sys2Proof/Laws/State.lean ====
section
/-! SUPPORT. One lemma per field and per update: what reading a field gives after an update of the state. A conjunction tagged simp gives one
rewriting rule for each of its parts. -/

namespace Sys2Proof.Machine

@[simp] theorem lane_setLane_same (s : State) (l : LaneId) (v : Lane) : (s.setLane l v).lane l = v := by
  simp [State.lane, State.setLane]
theorem lane_setLane_other (s : State) {l k : LaneId} (v : Lane) (h : k ≠ l) : (s.setLane l v).lane k = s.lane k := by
  have h' : l.val ≠ k.val := fun e => h (Fin.ext e.symm)
  simp [State.lane, State.setLane, Vector.getElem_set_ne _ _ h']
@[simp] theorem lane_onLane_same (s : State) (l : LaneId) (f : Lane → Lane) : (s.onLane l f).lane l = f (s.lane l) := by
  simp [State.onLane]
theorem lane_onLane_other (s : State) {l k : LaneId} (f : Lane → Lane) (h : k ≠ l) : (s.onLane l f).lane k = s.lane k := by
  simp [State.onLane, lane_setLane_other, h]

@[simp] theorem setLane_fields (s : State) (l : LaneId) (v : Lane) :
    (s.setLane l v).pending = s.pending ∧ (s.setLane l v).host = s.host ∧ (s.setLane l v).report = s.report ∧
    (s.setLane l v).table = s.table ∧ (s.setLane l v).claims = s.claims ∧ (s.setLane l v).decision = s.decision ∧
    (s.setLane l v).consign = s.consign ∧ (s.setLane l v).engine = s.engine := ⟨rfl, rfl, rfl, rfl, rfl, rfl, rfl, rfl⟩
@[simp] theorem onLane_fields (s : State) (l : LaneId) (f : Lane → Lane) :
    (s.onLane l f).pending = s.pending ∧ (s.onLane l f).host = s.host ∧ (s.onLane l f).report = s.report ∧
    (s.onLane l f).table = s.table ∧ (s.onLane l f).claims = s.claims ∧ (s.onLane l f).decision = s.decision ∧
    (s.onLane l f).consign = s.consign ∧ (s.onLane l f).engine = s.engine := ⟨rfl, rfl, rfl, rfl, rfl, rfl, rfl, rfl⟩
@[simp] theorem onLink_fields (s : State) (f : LinkCounters → LinkCounters) :
    (s.onLink f).pending = s.pending ∧ (s.onLink f).report = s.report ∧ (s.onLink f).table = s.table ∧
    (s.onLink f).claims = s.claims ∧ (s.onLink f).decision = s.decision ∧ (s.onLink f).consign = s.consign ∧
    (s.onLink f).engine = s.engine ∧ (s.onLink f).lanes = s.lanes ∧ (s.onLink f).host.rx = s.host.rx ∧
    (s.onLink f).host.replies = s.host.replies ∧ (s.onLink f).host.line = s.host.line ∧
    (s.onLink f).host.counters = f s.host.counters :=
  ⟨rfl, rfl, rfl, rfl, rfl, rfl, rfl, rfl, rfl, rfl, rfl, rfl⟩
@[simp] theorem onReport_fields (s : State) (f : ReportUnit → ReportUnit) :
    (s.onReport f).pending = s.pending ∧ (s.onReport f).host = s.host ∧ (s.onReport f).report = f s.report ∧
    (s.onReport f).table = s.table ∧ (s.onReport f).claims = s.claims ∧ (s.onReport f).decision = s.decision ∧
    (s.onReport f).consign = s.consign ∧ (s.onReport f).engine = s.engine ∧ (s.onReport f).lanes = s.lanes :=
  ⟨rfl, rfl, rfl, rfl, rfl, rfl, rfl, rfl, rfl⟩
@[simp] theorem setConsignment_fields (s : State) (l : LaneId) (c : Option Consignment) :
    (s.setConsignment l c).pending = s.pending ∧ (s.setConsignment l c).host = s.host ∧
    (s.setConsignment l c).report = s.report ∧ (s.setConsignment l c).table = s.table ∧
    (s.setConsignment l c).claims = s.claims ∧ (s.setConsignment l c).decision = s.decision ∧
    (s.setConsignment l c).engine = s.engine ∧ (s.setConsignment l c).lanes = s.lanes ∧
    (s.setConsignment l c).consign.stray = s.consign.stray ∧
    (s.setConsignment l c).consign.nextNumber = s.consign.nextNumber := ⟨rfl, rfl, rfl, rfl, rfl, rfl, rfl, rfl, rfl, rfl⟩
@[simp] theorem consignment_setConsignment_same (s : State) (l : LaneId) (c : Option Consignment) :
    (s.setConsignment l c).consignment l = c := by simp [State.consignment, State.setConsignment]
theorem consignment_setConsignment_other (s : State) {l k : LaneId} (c : Option Consignment) (h : k ≠ l) :
    (s.setConsignment l c).consignment k = s.consignment k := by
  have h' : l.val ≠ k.val := fun e => h (Fin.ext e.symm)
  simp [State.consignment, State.setConsignment, Vector.getElem_set_ne _ _ h']
@[simp] theorem putRecord_fields (s : State) (n : Nat) (r : TitleRecord) :
    (s.putRecord n r).pending = s.pending ∧ (s.putRecord n r).host = s.host ∧ (s.putRecord n r).report = s.report ∧
    (s.putRecord n r).table = s.table.place n r ∧ (s.putRecord n r).claims = s.claims ∧
    (s.putRecord n r).decision = s.decision ∧ (s.putRecord n r).consign = s.consign ∧
    (s.putRecord n r).engine = s.engine ∧ (s.putRecord n r).lanes = s.lanes := ⟨rfl, rfl, rfl, rfl, rfl, rfl, rfl, rfl, rfl⟩
@[simp] theorem reply_fields (s : State) (code tag : Byte) (b : ReplyBody) :
    (s.reply code tag b).pending = s.pending ∧ (s.reply code tag b).report = s.report ∧
    (s.reply code tag b).table = s.table ∧ (s.reply code tag b).claims = s.claims ∧
    (s.reply code tag b).decision = s.decision ∧ (s.reply code tag b).consign = s.consign ∧
    (s.reply code tag b).engine = s.engine ∧ (s.reply code tag b).lanes = s.lanes ∧
    (s.reply code tag b).host.rx = s.host.rx ∧ (s.reply code tag b).host.line = s.host.line ∧
    (s.reply code tag b).host.counters = s.host.counters :=
  ⟨rfl, rfl, rfl, rfl, rfl, rfl, rfl, rfl, rfl, rfl, rfl⟩
@[simp] theorem tellLanes_fields (s : State) (b : Bool) :
    (s.tellLanes b).pending = s.pending ∧ (s.tellLanes b).host = s.host ∧ (s.tellLanes b).report = s.report ∧
    (s.tellLanes b).table = s.table ∧ (s.tellLanes b).claims = s.claims ∧ (s.tellLanes b).decision = s.decision ∧
    (s.tellLanes b).consign = s.consign ∧ (s.tellLanes b).engine = s.engine := ⟨rfl, rfl, rfl, rfl, rfl, rfl, rfl, rfl⟩
@[simp] theorem lane_tellLanes (s : State) (b : Bool) (l : LaneId) :
    (s.tellLanes b).lane l = { s.lane l with news := (s.lane l).news ++ [b] } := by
  simp [State.lane, State.tellLanes]

/-- A lane is read from the vector alone. -/
theorem lane_of_lanes {s t : State} (h : t.lanes = s.lanes) (l : LaneId) : t.lane l = s.lane l := by
  simp [State.lane, h]
/-- A consignment is read from its unit alone. -/
theorem consignment_of_consign {s t : State} (h : t.consign = s.consign) (l : LaneId) :
    t.consignment l = s.consignment l := by simp [State.consignment, h]
@[simp] theorem lane_onReport (s : State) (f : ReportUnit → ReportUnit) (l : LaneId) : (s.onReport f).lane l = s.lane l := rfl
@[simp] theorem lane_onLink (s : State) (f : LinkCounters → LinkCounters) (l : LaneId) : (s.onLink f).lane l = s.lane l := rfl
@[simp] theorem lane_setConsignment (s : State) (l k : LaneId) (c : Option Consignment) :
    (s.setConsignment k c).lane l = s.lane l := rfl
@[simp] theorem lane_putRecord (s : State) (n : Nat) (r : TitleRecord) (l : LaneId) : (s.putRecord n r).lane l = s.lane l := rfl

end Sys2Proof.Machine
end

