-- ==== Sys2Proof/Laws/Ops.lean ====
section
/-! SUPPORT. What each shared operation can do, once: the blocks it leaves alone, the lanes it leaves alone, and what it does to the lane it
is asked of. -/

namespace Sys2Proof.Machine

/-! Notices. -/

@[simp] theorem ask_fields (s : State) (a : Source) (c : NoticeCondition) (e : Edge) (d : Detail) :
    (s.ask a c e d).pending = s.pending ∧ (s.ask a c e d).table = s.table ∧ (s.ask a c e d).claims = s.claims ∧
    (s.ask a c e d).decision = s.decision ∧ (s.ask a c e d).consign = s.consign ∧ (s.ask a c e d).engine = s.engine ∧
    (s.ask a c e d).lanes = s.lanes ∧ (s.ask a c e d).host.rx = s.host.rx ∧
    (s.ask a c e d).host.replies = s.host.replies ∧ (s.ask a c e d).host.line = s.host.line := by
  unfold State.ask; split <;> simp
@[simp] theorem laneNotice_fields (s : State) (l : LaneId) (c : NoticeCondition) (e : Edge) (d : Detail) :
    (s.laneNotice l c e d).pending = s.pending ∧ (s.laneNotice l c e d).table = s.table ∧
    (s.laneNotice l c e d).claims = s.claims ∧ (s.laneNotice l c e d).decision = s.decision ∧
    (s.laneNotice l c e d).consign = s.consign ∧ (s.laneNotice l c e d).engine = s.engine ∧
    (s.laneNotice l c e d).lanes = s.lanes ∧ (s.laneNotice l c e d).host.rx = s.host.rx ∧
    (s.laneNotice l c e d).host.replies = s.host.replies ∧ (s.laneNotice l c e d).host.line = s.host.line := by
  unfold State.laneNotice; split <;> simp
@[simp] theorem deviceNotice_fields (s : State) (c : NoticeCondition) (e : Edge) (d : Detail) :
    (s.deviceNotice c e d).pending = s.pending ∧ (s.deviceNotice c e d).table = s.table ∧
    (s.deviceNotice c e d).claims = s.claims ∧ (s.deviceNotice c e d).decision = s.decision ∧
    (s.deviceNotice c e d).consign = s.consign ∧ (s.deviceNotice c e d).engine = s.engine ∧
    (s.deviceNotice c e d).lanes = s.lanes ∧ (s.deviceNotice c e d).host.rx = s.host.rx ∧
    (s.deviceNotice c e d).host.replies = s.host.replies ∧ (s.deviceNotice c e d).host.line = s.host.line := by
  unfold State.deviceNotice; split <;> simp
@[simp] theorem lane_ask (s : State) (a : Source) (c : NoticeCondition) (e : Edge) (d : Detail) (l : LaneId) :
    (s.ask a c e d).lane l = s.lane l := lane_of_lanes (by simp) l
@[simp] theorem lane_laneNotice (s : State) (k : LaneId) (c : NoticeCondition) (e : Edge) (d : Detail) (l : LaneId) :
    (s.laneNotice k c e d).lane l = s.lane l := lane_of_lanes (by simp) l
@[simp] theorem lane_deviceNotice (s : State) (c : NoticeCondition) (e : Edge) (d : Detail) (l : LaneId) :
    (s.deviceNotice c e d).lane l = s.lane l := lane_of_lanes (by simp) l
@[simp] theorem consignment_laneNotice (s : State) (k : LaneId) (c : NoticeCondition) (e : Edge) (d : Detail) (l : LaneId) :
    (s.laneNotice k c e d).consignment l = s.consignment l := consignment_of_consign (by simp) l

/-! The line. -/

@[simp] theorem grant_fields (s : State) :
    s.grant.pending = s.pending ∧ s.grant.report = s.report ∧ s.grant.table = s.table ∧ s.grant.claims = s.claims ∧
    s.grant.decision = s.decision ∧ s.grant.consign = s.consign ∧ s.grant.engine = s.engine ∧ s.grant.lanes = s.lanes ∧
    s.grant.host.rx = s.host.rx ∧ s.grant.host.counters = s.host.counters := by
  unfold State.grant
  split
  · simp
  · split <;> simp
  · simp
@[simp] theorem lane_grant (s : State) (l : LaneId) : s.grant.lane l = s.lane l := lane_of_lanes (by simp) l
/-- R184: a frame begun keeps the line. -/
theorem grant_busy {s : State} (h : s.host.line ≠ .idle) : s.grant = s := by
  unfold State.grant
  split
  · next e _ => exact absurd e h
  · next e _ => exact absurd e h
  · rfl
/-- An event whose meaning ends with u and the line granted happens as u. -/
theorem happens_of_done {c : Instr} {s u : State} (h : exec c s = u.done) : Happens c s u := h

/-! Lanes. -/

@[simp] theorem reevaluate_fields (s : State) (l : LaneId) :
    (s.reevaluate l).pending = s.pending ∧ (s.reevaluate l).table = s.table ∧ (s.reevaluate l).claims = s.claims ∧
    (s.reevaluate l).decision = s.decision ∧ (s.reevaluate l).consign = s.consign ∧
    (s.reevaluate l).engine = s.engine ∧ (s.reevaluate l).host.rx = s.host.rx ∧
    (s.reevaluate l).host.replies = s.host.replies ∧ (s.reevaluate l).host.line = s.host.line := by
  unfold State.reevaluate; dsimp only; split <;> simp
theorem lane_reevaluate_other (s : State) {l k : LaneId} (h : k ≠ l) : (s.reevaluate l).lane k = s.lane k := by
  unfold State.reevaluate; dsimp only; split <;> simp [lane_onLane_other, h]
/-- Producing a record changes only what is being sent and what waits to be. -/
theorem produce_eq (v : Lane) (r : LaneOut) :
    v.produce r = { v with sending := (v.produce r).sending, outbox := (v.produce r).outbox } := by
  unfold Lane.produce; split <;> rfl
/-- R63: a record produced stands behind those produced before it. -/
theorem produce_records (v : Lane) (r : LaneOut) (h : v.sending = none → v.outbox = []) :
    (v.produce r).sending.toList ++ (v.produce r).outbox = v.sending.toList ++ v.outbox ++ [r] := by
  unfold Lane.produce
  split
  · next e => simp [h e, e]
  · next e => simp [e]
/-- Re-evaluating the hold flag changes a lane's hold flag and what it sends, and nothing else of it. -/
theorem lane_reevaluate (s : State) (l : LaneId) :
    (s.reevaluate l).lane l =
      { s.lane l with
        hold := (s.lane l).holdConditions
        sending := ((s.reevaluate l).lane l).sending
        outbox := ((s.reevaluate l).lane l).outbox } := by
  unfold State.reevaluate
  dsimp only
  split
  · next h => rw [h]
  · simp only [lane_laneNotice, lane_onLane_same]
    generalize (s.lane l).holdConditions = b
    rw [produce_eq]
@[simp] theorem levelNotice_fields (s : State) (l : LaneId) (b : LaneLevel) :
    (s.levelNotice l b).pending = s.pending ∧ (s.levelNotice l b).table = s.table ∧
    (s.levelNotice l b).claims = s.claims ∧ (s.levelNotice l b).decision = s.decision ∧
    (s.levelNotice l b).consign = s.consign ∧ (s.levelNotice l b).engine = s.engine ∧
    (s.levelNotice l b).lanes = s.lanes ∧ (s.levelNotice l b).host.rx = s.host.rx ∧
    (s.levelNotice l b).host.replies = s.host.replies ∧ (s.levelNotice l b).host.line = s.host.line := by
  unfold State.levelNotice; split <;> simp
@[simp] theorem lane_levelNotice (s : State) (l k : LaneId) (b : LaneLevel) : (s.levelNotice l b).lane k = s.lane k :=
  lane_of_lanes (by simp) k
@[simp] theorem send_fields (s : State) (l : LaneId) (r : LaneOut) :
    (s.send l r).pending = s.pending ∧ (s.send l r).host = s.host ∧ (s.send l r).report = s.report ∧
    (s.send l r).table = s.table ∧ (s.send l r).claims = s.claims ∧ (s.send l r).decision = s.decision ∧
    (s.send l r).consign = s.consign ∧ (s.send l r).engine = s.engine := by simp [State.send]
@[simp] theorem lane_send_same (s : State) (l : LaneId) (r : LaneOut) : (s.send l r).lane l = (s.lane l).produce r := by
  simp [State.send]
theorem lane_send_other (s : State) {l k : LaneId} (r : LaneOut) (h : k ≠ l) : (s.send l r).lane k = s.lane k := by
  simp [State.send, lane_onLane_other, h]

/-! The report unit. -/

@[simp] theorem settleReport_fields (s : State) :
    s.settleReport.pending = s.pending ∧ s.settleReport.table = s.table ∧ s.settleReport.claims = s.claims ∧
    s.settleReport.decision = s.decision ∧ s.settleReport.consign = s.consign ∧ s.settleReport.engine = s.engine ∧
    s.settleReport.host.rx = s.host.rx ∧ s.settleReport.host.replies = s.host.replies ∧
    s.settleReport.host.line = s.host.line := by
  unfold State.settleReport
  dsimp only
  split <;> split <;> (try split) <;> simp
/-- R185: settling the report space touches a lane only by the news it may send it. -/
theorem lane_settleReport (s : State) (l : LaneId) :
    s.settleReport.lane l = { s.lane l with news := (s.settleReport.lane l).news } := by
  unfold State.settleReport
  dsimp only
  split <;> split <;> (try split) <;> simp
/-- R186: making everything due changes nothing but the send point and the hold timer. -/
theorem sendAll_eq (r : ReportUnit) :
    r.sendAll = { r with sendPoint := r.sendAll.sendPoint, holdTimer := r.sendAll.holdTimer } := by
  unfold ReportUnit.sendAll; split <;> rfl
@[simp] theorem sendAll_fields (r : ReportUnit) :
    r.sendAll.filled = r.filled ∧ r.sendAll.reservedItem = r.reservedItem ∧
    r.sendAll.reservedNonItem = r.reservedNonItem ∧ r.sendAll.holdTime = r.holdTime ∧
    r.sendAll.reportsHeld = r.reportsHeld ∧ r.sendAll.enables = r.enables ∧ r.sendAll.batchNumber = r.batchNumber ∧
    r.sendAll.noSpace = r.noSpace ∧ r.sendAll.spaceLow = r.spaceLow := by
  unfold ReportUnit.sendAll; split <;> simp
/-- R185: a fill puts one record behind the others, and changes nothing else but the send point and the hold timer. -/
@[simp] theorem fill_fields (r : ReportUnit) (x : ReportRecord) :
    (r.fill x).filled = r.filled ++ [x] ∧ (r.fill x).reservedItem = r.reservedItem ∧
    (r.fill x).reservedNonItem = r.reservedNonItem ∧ (r.fill x).holdTime = r.holdTime ∧
    (r.fill x).reportsHeld = r.reportsHeld ∧ (r.fill x).enables = r.enables ∧ (r.fill x).batchNumber = r.batchNumber ∧
    (r.fill x).noSpace = r.noSpace ∧ (r.fill x).spaceLow = r.spaceLow := by
  unfold ReportUnit.fill; dsimp only; split <;> simp
/-- R189: a notice changes the report unit by one record behind the others, or by nothing. -/
theorem ask_filled (s : State) (a : Source) (c : NoticeCondition) (e : Edge) (d : Detail) :
    (s.ask a c e d).report.filled =
      if s.report.nonItemRoom then s.report.filled ++ [.notice ⟨a, c, e, s.table.day, d⟩] else s.report.filled := by
  unfold State.ask; split <;> simp
@[simp] theorem ask_reserved (s : State) (a : Source) (c : NoticeCondition) (e : Edge) (d : Detail) :
    (s.ask a c e d).report.reservedItem = s.report.reservedItem ∧
    (s.ask a c e d).report.reservedNonItem = s.report.reservedNonItem := by
  unfold State.ask; split <;> simp

/-! Consignments, items and windows. -/

@[simp] theorem closeConsignment_fields (s : State) (l : LaneId) (c : CloseCause) :
    (s.closeConsignment l c).pending = s.pending ∧ (s.closeConsignment l c).host = s.host ∧
    (s.closeConsignment l c).table = s.table ∧ (s.closeConsignment l c).claims = s.claims ∧
    (s.closeConsignment l c).decision = s.decision ∧ (s.closeConsignment l c).engine = s.engine ∧
    (s.closeConsignment l c).lanes = s.lanes ∧ (s.closeConsignment l c).consign.stray = s.consign.stray ∧
    (s.closeConsignment l c).consign.nextNumber = s.consign.nextNumber := by
  unfold State.closeConsignment; split <;> simp
@[simp] theorem lane_closeConsignment (s : State) (l k : LaneId) (c : CloseCause) :
    (s.closeConsignment l c).lane k = s.lane k := lane_of_lanes (by simp) k
/-- R136: after a close the context is closed. -/
@[simp] theorem consignment_closeConsignment (s : State) (l : LaneId) (c : CloseCause) :
    (s.closeConsignment l c).consignment l = none := by
  unfold State.closeConsignment; split <;> simp_all
@[simp] theorem endItem_fields (s : State) (l : LaneId) (i : Item) (o : ItemOutcome) (x : Fin 8) (r : Reason)
    (c : ConfirmResult) (f : Bool) :
    (s.endItem l i o x r c f).pending = s.pending ∧ (s.endItem l i o x r c f).host = s.host ∧
    (s.endItem l i o x r c f).table = s.table ∧ (s.endItem l i o x r c f).claims = s.claims ∧
    (s.endItem l i o x r c f).decision = s.decision ∧ (s.endItem l i o x r c f).consign = s.consign ∧
    (s.endItem l i o x r c f).engine = s.engine ∧ (s.endItem l i o x r c f).lanes = s.lanes := by
  unfold State.endItem; split <;> simp
@[simp] theorem lane_endItem (s : State) (l k : LaneId) (i : Item) (o : ItemOutcome) (x : Fin 8) (r : Reason)
    (c : ConfirmResult) (f : Bool) : (s.endItem l i o x r c f).lane k = s.lane k := lane_of_lanes (by simp) k
@[simp] theorem closeWindow_fields (s : State) (l : LaneId) (r : ConfirmResult) :
    (s.closeWindow l r).pending = s.pending ∧ (s.closeWindow l r).table = s.table ∧
    (s.closeWindow l r).claims = s.claims ∧ (s.closeWindow l r).decision = s.decision ∧
    (s.closeWindow l r).consign = s.consign ∧ (s.closeWindow l r).engine = s.engine ∧
    (s.closeWindow l r).host.rx = s.host.rx ∧ (s.closeWindow l r).host.replies = s.host.replies ∧
    (s.closeWindow l r).host.line = s.host.line := by
  unfold State.closeWindow
  split
  · simp
  · dsimp only; split <;> simp
/-- R99, R101: what the closing of a window does to its lane. -/
theorem lane_closeWindow (s : State) (l : LaneId) (r : ConfirmResult) :
    (s.closeWindow l r).lane l =
      match (s.lane l).held with
      | none => s.lane l
      | some _ => ({ s.lane l with held := none } : Lane).countFault r := by
  unfold State.closeWindow
  split
  · next e => simp [e]
  · next h e =>
    dsimp only
    split <;> simp [e]
theorem lane_closeWindow_other (s : State) {l k : LaneId} (r : ConfirmResult) (h : k ≠ l) :
    (s.closeWindow l r).lane k = s.lane k := by
  unfold State.closeWindow
  split
  · rfl
  · dsimp only; split <;> simp [lane_onLane_other, h]
@[simp] theorem flushItem_fields (l : LaneId) (r : Reason) (s : State) (i : Item) :
    (State.flushItem l r s i).pending = s.pending ∧ (State.flushItem l r s i).host = s.host ∧
    (State.flushItem l r s i).table = s.table ∧ (State.flushItem l r s i).claims = s.claims ∧
    (State.flushItem l r s i).decision = s.decision ∧ (State.flushItem l r s i).consign = s.consign ∧
    (State.flushItem l r s i).engine = s.engine := by
  unfold State.flushItem; dsimp only; simp [State.onCounters]
/-- A fact that each step of a fold keeps is kept by the fold. -/
theorem foldl_keeps {α β : Type} {f : α → β → α} {P : α → Prop} (step : ∀ a b, P a → P (f a b)) :
    ∀ (bs : List β) (a : α), P a → P (bs.foldl f a)
  | [], _, h => h
  | b :: t, a, h => foldl_keeps step t (f a b) (step a b h)
/-- A part of the state that each step of a fold leaves alone is left alone by the fold. -/
theorem foldl_same {α β γ : Type} {f : α → β → α} (g : α → γ) (step : ∀ a b, g (f a b) = g a) (bs : List β) (a : α) :
    g (bs.foldl f a) = g a :=
  foldl_keeps (P := fun x => g x = g a) (fun x b h => (step x b).trans h) bs a rfl
@[simp] theorem flush_fields (s : State) (l : LaneId) (r : Reason) :
    (s.flush l r).pending = s.pending ∧ (s.flush l r).table = s.table ∧ (s.flush l r).claims = s.claims ∧
    (s.flush l r).decision = s.decision ∧ (s.flush l r).consign = s.consign ∧ (s.flush l r).engine = s.engine ∧
    (s.flush l r).host.rx = s.host.rx ∧ (s.flush l r).host.replies = s.host.replies ∧
    (s.flush l r).host.line = s.host.line := by
  unfold State.flush
  simp [foldl_same State.pending (fun a b => (flushItem_fields l r a b).1),
    foldl_same State.table (fun a b => (flushItem_fields l r a b).2.2.1),
    foldl_same State.claims (fun a b => (flushItem_fields l r a b).2.2.2.1),
    foldl_same State.decision (fun a b => (flushItem_fields l r a b).2.2.2.2.1),
    foldl_same State.consign (fun a b => (flushItem_fields l r a b).2.2.2.2.2.1),
    foldl_same State.engine (fun a b => (flushItem_fields l r a b).2.2.2.2.2.2),
    foldl_same State.host (fun a b => (flushItem_fields l r a b).2.1)]
@[simp] theorem leaveService_fields (s : State) (l : LaneId) :
    (s.leaveService l).pending = s.pending ∧ (s.leaveService l).table = s.table ∧
    (s.leaveService l).claims = s.claims ∧ (s.leaveService l).decision = s.decision ∧
    (s.leaveService l).consign = s.consign ∧ (s.leaveService l).engine = s.engine ∧
    (s.leaveService l).host.rx = s.host.rx ∧ (s.leaveService l).host.replies = s.host.replies ∧
    (s.leaveService l).host.line = s.host.line := by
  unfold State.leaveService; dsimp only; split <;> simp
@[simp] theorem sweepLane_fields (s : State) (l : LaneId) (r : Reason) :
    (s.sweepLane l r).pending = s.pending ∧ (s.sweepLane l r).table = s.table ∧
    (s.sweepLane l r).claims = s.claims ∧ (s.sweepLane l r).decision = s.decision ∧
    (s.sweepLane l r).engine = s.engine ∧ (s.sweepLane l r).host.rx = s.host.rx ∧
    (s.sweepLane l r).host.replies = s.host.replies ∧ (s.sweepLane l r).host.line = s.host.line := by
  simp [State.sweepLane]
@[simp] theorem violate_fields (s : State) (l : LaneId) (c : ViolationCause) (t : RecordType) (q : Seq) :
    (s.violate l c t q).pending = s.pending ∧ (s.violate l c t q).table = s.table ∧
    (s.violate l c t q).claims = s.claims ∧ (s.violate l c t q).decision = s.decision ∧
    (s.violate l c t q).engine = s.engine ∧ (s.violate l c t q).host.rx = s.host.rx ∧
    (s.violate l c t q).host.replies = s.host.replies ∧ (s.violate l c t q).host.line = s.host.line := by
  simp [State.violate]

/-! The Title Table and the claim list. -/

@[simp] theorem withClaims_fields (s : State) (c : ClaimList) :
    (s.withClaims c).pending = s.pending ∧ (s.withClaims c).table = s.table ∧ (s.withClaims c).claims = c ∧
    (s.withClaims c).decision = s.decision ∧ (s.withClaims c).consign = s.consign ∧
    (s.withClaims c).engine = s.engine ∧ (s.withClaims c).lanes = s.lanes ∧ (s.withClaims c).host.rx = s.host.rx ∧
    (s.withClaims c).host.replies = s.host.replies ∧ (s.withClaims c).host.line = s.host.line := by
  unfold State.withClaims; dsimp only; split <;> simp
@[simp] theorem withTable_fields (s : State) (t : TitleTable) :
    (s.withTable t).pending = s.pending ∧ (s.withTable t).table = t ∧ (s.withTable t).claims = s.claims ∧
    (s.withTable t).decision = s.decision ∧ (s.withTable t).consign = s.consign ∧
    (s.withTable t).engine = s.engine ∧ (s.withTable t).lanes = s.lanes ∧ (s.withTable t).host.rx = s.host.rx ∧
    (s.withTable t).host.replies = s.host.replies ∧ (s.withTable t).host.line = s.host.line := by
  unfold State.withTable; dsimp only; split <;> simp
@[simp] theorem lane_withClaims (s : State) (c : ClaimList) (l : LaneId) : (s.withClaims c).lane l = s.lane l :=
  lane_of_lanes (by simp) l
@[simp] theorem lane_withTable (s : State) (t : TitleTable) (l : LaneId) : (s.withTable t).lane l = s.lane l :=
  lane_of_lanes (by simp) l

/-! Commands. -/

/-- R182, R183: a command that is taken happens as what its block does, with its reply at the tail of the reply queue. -/
theorem takes_of_command {α : Type} {c : Instr} {s : State} {code tag : Byte} {body : Body α}
    {run : α → State → State × ReplyBody} {a : α} {u : State} {b : ReplyBody}
    (hc : exec c s = s.command code tag body run) (hb : body = .fields a) (hs : s.listens)
    (hr : run a (s.onLink fun k => { k with framesTaken := bump k.framesTaken }) =
      (u.onLink fun k => { k with framesTaken := bump k.framesTaken }, b)) :
    Takes c s (replyCode code) tag b u := by
  subst hb
  have hs' : ¬ Config.replyQueue ≤ s.host.replies.length := by
    simp only [State.listens] at hs; simp [Config.replyQueue]; omega
  unfold Takes Happens
  rw [hc]
  simp only [State.command, State.takeFrame, hs', if_false, hr, State.done]
  rfl

/-- R182: with 8 replies waiting a frame is counted and dropped, whatever it carries. -/
theorem takeFrame_full {s : State} (h : 8 ≤ s.host.replies.length) (code tag : Byte) (run : State → State × ReplyBody) :
    s.takeFrame code tag run = .next { s with host := { s.host with counters := { s.host.counters with
      framesTaken := bump s.host.counters.framesTaken
      commandsDropped := bump s.host.counters.commandsDropped } } } := by
  simp [State.takeFrame, Config.replyQueue, h, State.onLink]
theorem command_full {α : Type} {s : State} (h : 8 ≤ s.host.replies.length) (code tag : Byte) (body : Body α)
    (run : α → State → State × ReplyBody) :
    s.command code tag body run = .next { s with host := { s.host with counters := { s.host.counters with
      framesTaken := bump s.host.counters.framesTaken
      commandsDropped := bump s.host.counters.commandsDropped } } } := takeFrame_full h code tag _
/-- R183: a malformed body is refused INVALID. -/
theorem refuses_malformed {α : Type} {c : Instr} {s : State} {code tag : Byte} {run : α → State → State × ReplyBody}
    (hc : exec c s = s.command code tag .malformed run) (hs : s.listens) :
    Refuses c s (replyCode code) tag .invalid .none := by
  have hs' : ¬ Config.replyQueue ≤ s.host.replies.length := by
    simp only [State.listens] at hs; simp [Config.replyQueue]; omega
  unfold Refuses Takes Happens
  rw [hc]
  simp only [State.command, State.takeFrame, hs', if_false, State.done]
  rfl
/-- R183: a refusal of a command's block changes nothing. -/
theorem refuses_of_command {α : Type} {c : Instr} {s : State} {code tag : Byte} {body : Body α}
    {run : α → State → State × ReplyBody} {a : α} {r : RefusalReason} {d : RefusalDetail}
    (hc : exec c s = s.command code tag body run) (hb : body = .fields a) (hs : s.listens)
    (hr : ∀ t : State, t = { s with host := t.host } → run a t = (t, .refused r d)) :
    Refuses c s (replyCode code) tag r d :=
  takes_of_command hc hb hs (hr _ rfl)

/-! What is filed, and what is asked of the claim list. -/

/-- Filing changes the report unit and the count of notices dropped, and nothing else. -/
@[simp] theorem file_fields (s : State) (f : Filing) :
    (s.file f).pending = s.pending ∧ (s.file f).table = s.table ∧ (s.file f).claims = s.claims ∧
    (s.file f).decision = s.decision ∧ (s.file f).consign = s.consign ∧ (s.file f).engine = s.engine ∧
    (s.file f).lanes = s.lanes ∧ (s.file f).host.rx = s.host.rx ∧ (s.file f).host.replies = s.host.replies ∧
    (s.file f).host.line = s.host.line := by
  cases f <;> simp only [State.file] <;> (try split) <;> simp
@[simp] theorem files_nil (s : State) : s.files [] = s := rfl
@[simp] theorem files_cons (s : State) (f : Filing) (fs : List Filing) : s.files (f :: fs) = (s.file f).files fs := rfl
@[simp] theorem files_append (s : State) (fs gs : List Filing) : s.files (fs ++ gs) = (s.files fs).files gs := by
  simp [State.files]
@[simp] theorem files_fields (s : State) (fs : List Filing) :
    (s.files fs).pending = s.pending ∧ (s.files fs).table = s.table ∧ (s.files fs).claims = s.claims ∧
    (s.files fs).decision = s.decision ∧ (s.files fs).consign = s.consign ∧ (s.files fs).engine = s.engine ∧
    (s.files fs).lanes = s.lanes ∧ (s.files fs).host.rx = s.host.rx ∧ (s.files fs).host.replies = s.host.replies ∧
    (s.files fs).host.line = s.host.line := by
  induction fs generalizing s with
  | nil => simp
  | cons f t ih => simp [ih]
@[simp] theorem lane_files (s : State) (fs : List Filing) (l : LaneId) : (s.files fs).lane l = s.lane l :=
  lane_of_lanes (by simp) l
/-- A request to the report unit reads of the state its day, the lanes' configurations and the report unit's enables alone: what else
stands around it can be set before or after. -/
theorem file_commutes {s t : State} (f : Filing) (day : t.table.day = s.table.day) (report : t.report = s.report)
    (counters : t.host.counters = s.host.counters) (configs : ∀ l : LaneId, (t.lane l).config = (s.lane l).config) :
    (t.file f).report = (s.file f).report ∧ (t.file f).host.counters = (s.file f).host.counters := by
  cases f <;> simp only [State.file, State.ask, State.onReport, State.onLink, day, report, counters, configs] <;>
    (try split) <;> (try split) <;> simp_all
/-- The same for a list of requests. -/
theorem files_commute {s t : State} (fs : List Filing) (day : t.table.day = s.table.day) (report : t.report = s.report)
    (counters : t.host.counters = s.host.counters) (configs : ∀ l : LaneId, (t.lane l).config = (s.lane l).config) :
    (t.files fs).report = (s.files fs).report ∧ (t.files fs).host.counters = (s.files fs).host.counters := by
  induction fs generalizing s t with
  | nil => exact ⟨report, counters⟩
  | cons f rest ih =>
    obtain ⟨r, c⟩ := file_commutes f day report counters configs
    exact ih (by simpa using day) r c fun l => by simpa [State.lane] using configs l
@[simp] theorem claimsAfter_nil (s : State) (k : Key) (q : Nat) : s.claimsAfter k q [] = s := rfl
@[simp] theorem claimsAfter_append (s : State) (k : Key) (q : Nat) (xs ys : List ClaimRequest) :
    s.claimsAfter k q (xs ++ ys) = (s.claimsAfter k q xs).claimsAfter k q ys := by simp [State.claimsAfter]
@[simp] theorem after_append (c : ClaimList) (k : Key) (q day : Nat) (xs ys : List ClaimRequest) :
    c.after k q day (xs ++ ys) = (c.after k q day xs).after k q day ys := by simp [ClaimList.after]
@[simp] theorem after_cons (c : ClaimList) (k : Key) (q day : Nat) (r : ClaimRequest) (rs : List ClaimRequest) :
    c.after k q day (r :: rs) = (r.run k q day c).after k q day rs := rfl
theorem not_answers_nil (c : ClaimList) (k : Key) (q day : Nat) (flagged : Bool) (a : SatisfyAnswer) :
    ¬ c.answers k q day [] flagged a := by simp [ClaimList.answers]
/-- The answer to a list of requests is that of its first, or one of the others' on the claim list the first leaves. -/
theorem answers_cons (c : ClaimList) (k : Key) (q day : Nat) (r : ClaimRequest) (rs : List ClaimRequest) (flagged : Bool)
    (a : SatisfyAnswer) : c.answers k q day (r :: rs) flagged a ↔
      (∃ m, r = .satisfy m flagged ∧ (c.satisfy k m).2 = a) ∨ (r.run k q day c).answers k q day rs flagged a := by
  constructor
  · rintro ⟨before, m, rest, e, h⟩
    cases before with
    | nil =>
      injection e with e _
      exact .inl ⟨m, e, h⟩
    | cons b bs =>
      injection e with e t
      subst e
      exact .inr ⟨bs, m, rest, t, h⟩
  · rintro (⟨m, rfl, h⟩ | ⟨before, m, rest, rfl, h⟩)
    · exact ⟨[], m, rs, rfl, h⟩
    · exact ⟨r :: before, m, rest, rfl, h⟩
/-- No satisfaction among the requests: neither indication. -/
theorem indicates_raises (c : ClaimList) (k : Key) (q day : Nat) (rs : List (Nat × Nat)) (cause : ClaimCause) :
    c.indicates k q day (rs.map fun y => .raise y.1 y.2 cause) false false := by
  have none (c : ClaimList) (f : Bool) (a : SatisfyAnswer) : ¬ c.answers k q day (rs.map fun y => .raise y.1 y.2 cause) f a := by
    induction rs generalizing c with
    | nil => exact not_answers_nil c k q day f a
    | cons y t ih => simp [answers_cons, ih]
  simp [ClaimList.indicates, none]
/-- Requests to the claim list change it as they do one after another, and else only file notices. -/
@[simp] theorem claimsAfter_fields (s : State) (k : Key) (q : Nat) (rs : List ClaimRequest) :
    (s.claimsAfter k q rs).claims = s.claims.after k q s.table.today rs ∧ (s.claimsAfter k q rs).table = s.table ∧
    (s.claimsAfter k q rs).pending = s.pending ∧ (s.claimsAfter k q rs).decision = s.decision ∧
    (s.claimsAfter k q rs).consign = s.consign ∧ (s.claimsAfter k q rs).engine = s.engine ∧
    (s.claimsAfter k q rs).lanes = s.lanes := by
  induction rs generalizing s with
  | nil => simp [ClaimList.after]
  | cons r t ih =>
    have h : s.claimsAfter k q (r :: t) = (s.withClaims (r.run k q s.table.today s.claims)).claimsAfter k q t := rfl
    rw [h]
    simp [ih, ClaimList.after]

end Sys2Proof.Machine
end

