-- ==== Sys2Proof/Laws/Tables.lean ====
section
/-! SUPPORT. What the operations of the Title Table do to the slots: finding a record by its key (R9, R19), placing and freeing one (R19,
R20), and the lowest free slot. -/

namespace Sys2Proof.Machine

/-! Slots. -/

/-- R19: no two records stand in one slot. -/
theorem slot_unique {t : TitleTable} (h : t.wf) {e f : Nat × TitleRecord} (he : e ∈ t.slots) (hf : f ∈ t.slots)
    (hn : e.1 = f.1) : e = f := by
  have hp := h.1
  rw [List.pairwise_map] at hp
  generalize t.slots = es at *
  induction es with
  | nil => cases he
  | cons x xs ih =>
    rw [List.pairwise_cons] at hp
    rcases List.mem_cons.1 he with rfl | he' <;> rcases List.mem_cons.1 hf with rfl | hf'
    · rfl
    · have := hp.1 f hf'; omega
    · have := hp.1 e he'; omega
    · exact ih he' hf' hp.2
/-- R19: no two records have one key. -/
theorem key_unique {t : TitleTable} (h : t.wf) {e f : Nat × TitleRecord} (he : e ∈ t.slots) (hf : f ∈ t.slots)
    (hk : e.2.key = f.2.key) : e = f := by
  have hp := h.2.2
  rw [List.nodup_iff_pairwise_ne, List.pairwise_map] at hp
  generalize t.slots = es at *
  induction es with
  | nil => cases he
  | cons x xs ih =>
    rw [List.pairwise_cons] at hp
    rcases List.mem_cons.1 he with rfl | he' <;> rcases List.mem_cons.1 hf with rfl | hf'
    · rfl
    · exact absurd hk (hp.1 f hf')
    · exact absurd hk.symm (hp.1 e he')
    · exact ih he' hf' hp.2
/-- R19: a lookup answers a record of the key, and the slot it stands in. -/
theorem lookup_mem {t : TitleTable} {k : Key} {n : Nat} {r : TitleRecord} (h : t.lookup k = some (n, r)) :
    (n, r) ∈ t.slots ∧ r.key = k := by
  have := List.find?_some h
  exact ⟨List.mem_of_find?_eq_some h, by simpa using this⟩
/-- R19: in a table in its form a lookup finds the record of the key. -/
theorem lookup_of_mem {t : TitleTable} (h : t.wf) {n : Nat} {r : TitleRecord} (hm : (n, r) ∈ t.slots) :
    t.lookup r.key = some (n, r) := by
  cases he : t.lookup r.key with
  | none =>
    have := List.find?_eq_none.1 he (n, r) hm
    simp at this
  | some e =>
    obtain ⟨h1, h2⟩ := lookup_mem he
    exact congrArg some (key_unique h h1 hm h2)
/-- A lookup of a key that no record has finds nothing. -/
theorem lookup_eq_none {t : TitleTable} {k : Key} (h : ∀ e ∈ t.slots, e.2.key ≠ k) : t.lookup k = none := by
  simp only [TitleTable.lookup, List.find?_eq_none]
  intro e he
  simpa using h e he
theorem lookup_of_finds {s : State} {kt : KeyText} {n : Nat} {r : TitleRecord} (h : s.finds kt n r) :
    keyOf kt = some r.key ∧ s.table.lookup r.key = some (n, r) := ⟨h.2.2, lookup_of_mem h.1 h.2.1⟩
theorem lookup_of_lacks {s : State} {kt : KeyText} {k : Key} (h : s.lacks kt k) :
    keyOf kt = some k ∧ s.table.lookup k = none := ⟨h.1, lookup_eq_none h.2⟩

/-! Placing. -/

/-- What a slot list holds after a placing. -/
theorem mem_placeSlot {n : Nat} {r : TitleRecord} : ∀ {es : List (Nat × TitleRecord)},
    (es.map (·.1)).Pairwise (· < ·) → ∀ e, e ∈ placeSlot n r es ↔ (e ∈ es ∧ e.1 ≠ n) ∨ e = (n, r)
  | [], _, e => by simp [placeSlot]
  | (m, x) :: t, h, e => by
    rw [List.map_cons, List.pairwise_cons] at h
    have ht : ∀ f ∈ t, m < f.1 := fun f hf => h.1 f.1 (List.mem_map_of_mem hf)
    unfold placeSlot
    split
    · next hlt =>
      rw [List.mem_cons, mem_placeSlot h.2 e, List.mem_cons]
      constructor
      · rintro (rfl | ⟨h1, h2⟩ | h3)
        · exact .inl ⟨.inl rfl, by simp; omega⟩
        · exact .inl ⟨.inr h1, h2⟩
        · exact .inr h3
      · rintro (⟨rfl | h1, h2⟩ | h3)
        · exact .inl rfl
        · exact .inr (.inl ⟨h1, h2⟩)
        · exact .inr (.inr h3)
    · split
      · next hge heq =>
        subst heq
        rw [List.mem_cons, List.mem_cons]
        constructor
        · rintro (rfl | h1)
          · exact .inr rfl
          · exact .inl ⟨.inr h1, by have := ht e h1; omega⟩
        · rintro (⟨rfl | h1, h2⟩ | h3)
          · exact absurd rfl h2
          · exact .inr h1
          · exact .inl h3
      · next hge hne =>
        rw [List.mem_cons, List.mem_cons]
        constructor
        · rintro (rfl | rfl | h1)
          · exact .inr rfl
          · exact .inl ⟨.inl rfl, hne⟩
          · exact .inl ⟨.inr h1, by have := ht e h1; omega⟩
        · rintro (⟨rfl | h1, h2⟩ | h3)
          · exact .inr (.inl rfl)
          · exact .inr (.inr h1)
          · exact .inl h3
/-- R19: a placing keeps the slots rising. -/
theorem rising_placeSlot {n : Nat} {r : TitleRecord} : ∀ {es : List (Nat × TitleRecord)},
    (es.map (·.1)).Pairwise (· < ·) → ((placeSlot n r es).map (·.1)).Pairwise (· < ·)
  | [], _ => by simp [placeSlot]
  | (m, x) :: t, h => by
    have h' := h
    rw [List.map_cons, List.pairwise_cons] at h
    unfold placeSlot
    split
    · next hlt =>
      rw [List.map_cons, List.pairwise_cons]
      refine ⟨?_, rising_placeSlot h.2⟩
      intro a ha
      obtain ⟨e, he, rfl⟩ := List.mem_map.1 ha
      rcases (mem_placeSlot h.2 e).1 he with ⟨h1, _⟩ | rfl
      · exact h.1 _ (List.mem_map_of_mem h1)
      · exact hlt
    · split
      · next hge heq => subst heq; simpa using h'
      · next hge hne =>
        rw [List.map_cons, List.pairwise_cons]
        refine ⟨?_, h'⟩
        intro a ha
        rw [List.map_cons, List.mem_cons] at ha
        rcases ha with rfl | ha
        · simp only; omega
        · have := h.1 a ha; omega
/-- R19: a placing whose key no other slot has keeps the table in its form and puts the record in its slot. -/
theorem place_puts {t : TitleTable} (h : t.wf) {n : Nat} {r : TitleRecord} (hn : n < Config.titleSlots)
    (hk : ∀ e ∈ t.slots, e.1 ≠ n → e.2.key ≠ r.key) : t.putsRecord (t.place n r) n r := by
  have hm := mem_placeSlot (r := r) h.1 (n := n)
  refine ⟨⟨rising_placeSlot h.1, ?_, ?_⟩, rfl, hm⟩
  · intro e he
    rcases (hm e).1 he with ⟨h1, _⟩ | rfl
    · exact h.2.1 e h1
    · exact hn
  · have hr := rising_placeSlot (r := r) (n := n) h.1
    have hd := h.2.2
    rw [List.nodup_iff_pairwise_ne, List.pairwise_map]
    rw [List.pairwise_map] at hr
    refine List.Pairwise.imp_of_mem ?_ hr
    intro a b ha hb hab
    rcases (hm a).1 ha with ⟨a1, a2⟩ | rfl <;> rcases (hm b).1 hb with ⟨b1, b2⟩ | rfl
    · intro hkey
      have := key_unique h a1 b1 hkey
      subst this; omega
    · exact hk a a1 a2
    · exact fun hkey => hk b b1 b2 hkey.symm
    · simp at hab
/-- R19: a record that stands in a slot may take new fields but its key. -/
theorem place_puts_of_mem {t : TitleTable} (h : t.wf) {n : Nat} {old r : TitleRecord} (hm : (n, old) ∈ t.slots)
    (hk : r.key = old.key) : t.putsRecord (t.place n r) n r := by
  refine place_puts h (h.2.1 _ hm) ?_
  intro e he hne hkey
  have := key_unique h he hm (hkey.trans hk)
  exact hne (by rw [this])

/-! The lowest free slot. -/

/-- R19: the number that lowestFrom gives is free, and every lower one from n up is taken. -/
theorem lowestFrom_spec : ∀ (es : List (Nat × TitleRecord)) (n : Nat), (es.map (·.1)).Pairwise (· < ·) →
    (∀ e ∈ es, n ≤ e.1) →
    n ≤ lowestFrom n es ∧ (∀ e ∈ es, e.1 ≠ lowestFrom n es) ∧
    (∀ m, n ≤ m → m < lowestFrom n es → ∃ e ∈ es, e.1 = m) ∧ lowestFrom n es ≤ n + es.length
  | [], n, _, _ => ⟨by simp [lowestFrom], by simp, fun m h1 h2 => by simp [lowestFrom] at h2; omega, by simp [lowestFrom]⟩
  | (m, x) :: t, n, h, hn => by
    rw [List.map_cons, List.pairwise_cons] at h
    have ht : ∀ f ∈ t, m < f.1 := fun f hf => h.1 f.1 (List.mem_map_of_mem hf)
    have hm := hn (m, x) List.mem_cons_self
    unfold lowestFrom
    split
    · next heq =>
      subst heq
      obtain ⟨h1, h2, h3, h4⟩ := lowestFrom_spec t (m + 1) h.2 (fun e he => ht e he)
      refine ⟨by omega, ?_, ?_, by simp; omega⟩
      · intro e he
        rcases List.mem_cons.1 he with rfl | he
        · simp only; omega
        · exact h2 e he
      · intro k hk1 hk2
        by_cases hk : k = m
        · exact ⟨(m, x), List.mem_cons_self, hk.symm⟩
        · obtain ⟨e, he, hek⟩ := h3 k (by omega) hk2
          exact ⟨e, List.mem_cons_of_mem _ he, hek⟩
    · next hne =>
      simp only at hm
      refine ⟨Nat.le_refl _, ?_, fun k h1 h2 => by omega, by omega⟩
      intro e he
      rcases List.mem_cons.1 he with rfl | he
      · exact hne
      · have := ht e he; omega
/-- A rising list of numbers below a bound is no longer than the bound; where it is as long, it leaves no number out. -/
theorem rising_length : ∀ (ns : List Nat) (a b : Nat), ns.Pairwise (· < ·) → (∀ n ∈ ns, a ≤ n ∧ n < b) → a ≤ b →
    ns.length ≤ b - a ∧ (ns.length = b - a → ∀ m, a ≤ m → m < b → m ∈ ns)
  | [], a, b, _, _, _ => ⟨by simp, fun h m h1 h2 => by simp at h; omega⟩
  | x :: t, a, b, h, hb, hab => by
    rw [List.pairwise_cons] at h
    have hx := hb x List.mem_cons_self
    obtain ⟨h1, h2⟩ := rising_length t (x + 1) b h.2
      (fun n hn => ⟨h.1 n hn, (hb n (List.mem_cons_of_mem _ hn)).2⟩) (by omega)
    refine ⟨by simp; omega, ?_⟩
    intro hl m hm1 hm2
    simp only [List.length_cons] at hl
    have hxa : x = a := by omega
    by_cases hm : m = x
    · simp [hm]
    · exact List.mem_cons_of_mem _ (h2 (by omega) m (by omega) hm2)
/-- R19: the lowest free slot is the one below which every slot is taken. -/
theorem lowestFree_eq {t : TitleTable} (h : t.wf) {n : Nat} (hn : n < Config.titleSlots) (hf : ∀ e ∈ t.slots, e.1 ≠ n)
    (hl : ∀ m, m < n → ∃ e ∈ t.slots, e.1 = m) : t.lowestFree = some n := by
  obtain ⟨_, h2, h3, _⟩ := lowestFrom_spec t.slots 0 h.1 (by simp)
  have : lowestFrom 0 t.slots = n := by
    rcases Nat.lt_trichotomy (lowestFrom 0 t.slots) n with hlt | heq | hgt
    · obtain ⟨e, he, hem⟩ := hl _ hlt
      exact absurd hem (h2 e he)
    · exact heq
    · obtain ⟨e, he, hem⟩ := h3 n (by omega) hgt
      exact absurd hem (hf e he)
  simp [TitleTable.lowestFree, this, hn]
/-- R20: a table has 8192 records when no slot is free. -/
theorem lowestFree_full {t : TitleTable} (h : t.wf) (hl : t.slots.length = Config.titleSlots) : t.lowestFree = none := by
  obtain ⟨_, h2, _, _⟩ := lowestFrom_spec t.slots 0 h.1 (by simp)
  have hb := rising_length (t.slots.map (·.1)) 0 Config.titleSlots h.1
    (fun n hn => by obtain ⟨e, he, rfl⟩ := List.mem_map.1 hn; exact ⟨by omega, h.2.1 e he⟩) (by decide)
  simp only [TitleTable.lowestFree, ite_eq_right_iff, reduceCtorEq, imp_false]
  intro hlt
  obtain ⟨e, he, hem⟩ := List.mem_map.1 (hb.2 (by simpa using hl) _ (by omega) hlt)
  exact h2 e he hem
/-- R20: a table with a free slot has fewer than 8192 records. -/
theorem length_lt_of_free {t : TitleTable} (h : t.wf) {n : Nat} (hn : n < Config.titleSlots) (hf : ∀ e ∈ t.slots, e.1 ≠ n) :
    t.slots.length < Config.titleSlots := by
  have hb := rising_length (t.slots.map (·.1)) 0 Config.titleSlots h.1
    (fun n hn => by obtain ⟨e, he, rfl⟩ := List.mem_map.1 hn; exact ⟨by omega, h.2.1 e he⟩) (by decide)
  rw [List.length_map] at hb
  refine Nat.lt_of_le_of_ne (by omega) fun heq => ?_
  obtain ⟨e, he, hem⟩ := List.mem_map.1 (hb.2 (by omega) n (by omega) hn)
  exact hf e he hem

end Sys2Proof.Machine
end

