-- ==== Sys2Proof/Tests/Slice0.lean ====
section
/-! SUPPORT. The model's own tests: an ill-formed term for every check of WellFormed, worked examples on small states, and for each statement
that has hypotheses a state and operands that meet all of them, clause by clause. -/

namespace Sys2Proof.Tests

open Sys2Proof.Machine

set_option Elab.async false

/-! Ill-formed terms. -/

/-- The characters of decimal digits. -/
def chars (ds : List Nat) : List Byte := ds.map fun d => BitVec.ofNat 8 (0x30 + d)
/-- A text one character too long. -/
def long : List Byte := List.replicate 17 0x30#8

theorem test_long_text_refused : (Instr.observation 0 1#16 (.ident ⟨0x01#8, long, none⟩)).wf = false := by decide +kernel
theorem test_weight_zero_refused : (Instr.observation 0 1#16 (.weight 0#16)).wf = false := by decide +kernel
theorem test_size_zero_refused : (Instr.itemEnd 0 1#16 (some (.size 0#16 1#16 1#16))).wf = false := by decide +kernel
theorem test_size_2001_refused : (Instr.observation 0 1#16 (.size 1#16 2001#16 1#16)).wf = false := by decide +kernel
theorem test_confirm_outlet_8_refused : (Instr.confirm 7 1#16 8#8).wf = false := by decide +kernel
theorem test_long_key_refused : (Instr.readTitle 1#8 (.fields ⟨0x01#8, long⟩)).wf = false := by decide +kernel
theorem test_withdraw_long_key_refused : (Instr.withdrawTitle 1#8 (.fields ⟨0x01#8, long⟩)).wf = false := by decide +kernel
theorem test_set_run_long_key_refused : (Instr.setRun 1#8 (.fields ⟨⟨0x02#8, long⟩, 1#32⟩)).wf = false := by decide +kernel
theorem test_enable_twice_refused :
    (Instr.setNotices 1#8 (.fields [⟨.tableFull, 1#8⟩, ⟨.tableFull, 0#8⟩])).wf = false := by decide +kernel
theorem test_announce_plan_length_refused :
    (Instr.announceTitle 1#8 (.fields ⟨⟨0x01#8, []⟩, .monograph, 1#32, 2#8, [.preserve], none, none⟩)).wf = false := by
  decide +kernel
theorem test_announce_long_key_refused :
    (Instr.announceTitle 1#8 (.fields ⟨⟨0x01#8, long⟩, .monograph, 1#32, 1#8, [.preserve], none, none⟩)).wf = false := by
  decide +kernel
theorem test_amend_empty_plan_refused :
    (Instr.amendTitle 1#8 (.fields ⟨⟨0x01#8, []⟩, none, some [], .keep, none, none, none⟩)).wf = false := by decide +kernel
theorem test_amend_five_plan_refused :
    (Instr.amendTitle 1#8 (.fields ⟨⟨0x01#8, []⟩, none, some (List.replicate 5 .reading), .keep, none, none, none⟩)).wf = false := by
  decide +kernel
theorem test_amend_long_key_refused :
    (Instr.amendTitle 1#8 (.fields ⟨⟨0x01#8, long⟩, none, none, .keep, none, none, none⟩)).wf = false := by decide +kernel
theorem test_nine_outlets_refused :
    (Instr.configureLane 1#8 (.fields ⟨0#8, none, some (List.replicate 9 0#8), none, none, none, none⟩)).wf = false := by
  decide +kernel
theorem test_lane_enable_twice_refused :
    (Instr.configureLane 1#8
      (.fields ⟨0#8, none, none, none, none, none, some [⟨.held, 1#8⟩, ⟨.held, 1#8⟩]⟩)).wf = false := by decide +kernel
theorem test_steering_count_refused : (Instr.setSteering 1#8 (.fields ⟨0#8, 2#16, [0#8]⟩)).wf = false := by decide +kernel
theorem test_known_code_refused : (Instr.unknownCommand 0x01#8 1#8).wf = false := by decide +kernel

/-! Identifiers, check characters, words of the wire. -/

/-- Two BOOK texts, two SERIAL texts, one LOCAL text, the texts of a header and a trailer slip, and a text that fails its check. -/
def bookText : List Byte := chars [9, 7, 9, 1, 2, 3, 4, 5, 6, 7, 8, 9, 6]
def otherBook : List Byte := chars [9, 7, 9, 1, 2, 3, 4, 5, 6, 7, 8, 8, 9]
def serialText : List Byte := chars [1, 2, 3, 4, 5, 6, 7, 9]
def serialX : List Byte := chars [0, 0, 0, 0, 0, 0, 6] ++ [0x58#8]
def localText : List Byte := chars [2, 0, 0, 0, 0, 0, 1, 2, 3, 4, 5, 1]
def headerText : List Byte := chars [1, 4, 1, 2, 3, 7, 7, 0, 0, 0, 9]
def trailerText : List Byte := chars [2, 4, 1, 2, 3, 7, 7, 0, 0, 0, 8]
def badText : List Byte := chars [9, 7, 9, 1, 2, 3, 4, 5, 6, 7, 8, 9, 7]
def bookKey : Key := ⟨.book, [9, 7, 9, 1, 2, 3, 4, 5, 6, 7, 8, 9, 6]⟩
def serialKey : Key := ⟨.serial, [1, 2, 3, 4, 5, 6, 7, 9]⟩

theorem test_keys_are_read :
    keyOf ⟨0x01#8, bookText⟩ = some bookKey ∧ keyOf ⟨0x02#8, serialText⟩ = some serialKey ∧
    keyOf ⟨0x02#8, serialX⟩ = some ⟨.serial, [0, 0, 0, 0, 0, 0, 6, 10]⟩ ∧
    keyOf ⟨0x03#8, localText⟩ = some ⟨.localNum, [2, 0, 0, 0, 0, 0, 1, 2, 3, 4, 5, 1]⟩ ∧
    keyOf ⟨0x01#8, badText⟩ = none ∧ keyOf ⟨0x00#8, bookText⟩ = none ∧ keyOf ⟨0x04#8, headerText⟩ = none ∧
    Ident.slip? ⟨0x04#8, headerText, none⟩ = some ⟨false, 412377, 0⟩ ∧
    Ident.slip? ⟨0x04#8, trailerText, none⟩ = some ⟨true, 412377, 0⟩ ∧ Ident.slip? ⟨0x01#8, headerText, none⟩ = none := by
  decide +kernel
/-- R175: the first value of the generator is 1. -/
theorem test_generator_values :
    generatorStep 1#15 = 2#15 ∧ generatorStep 0x4000#15 = 1#15 ∧
    testIdentifier 1#15 = chars [9, 9, 0, 0, 0, 0, 0, 0, 0, 0, 1, 3] := by decide +kernel
theorem test_choice_of_keys :
    choose [⟨0x01#8, bookText, none⟩, ⟨0x02#8, serialText, none⟩] = .key serialKey none ∧
    choose [⟨0x01#8, badText, none⟩, ⟨0x01#8, bookText, some ⟨1#16, 2#24, 1#8⟩⟩] = .key bookKey (some ⟨1#16, 2#24, 1#8⟩) ∧
    choose [⟨0x01#8, bookText, none⟩, ⟨0x01#8, otherBook, none⟩] = .failed .conflict ∧
    choose [⟨0x01#8, badText, none⟩] = .failed .checkFail ∧ choose [] = .failed .noIdentifier ∧
    choose [⟨0x01#8, bookText, none⟩, ⟨0x04#8, headerText, none⟩] = .slip ⟨false, 412377, 0⟩ := by decide +kernel
/-- R181: SET DAY of 20 with tag 5, byte by byte: its frame reads back to the command. -/
theorem test_frame_of_set_day :
    encodeCommand (.setDay 5#8 (.fields 20#16)) = some (0x15#8, 5#8, [0x00#8, 0x14#8]) ∧
    decodeCommand 0x15#8 5#8 [0x00#8, 0x14#8] = .setDay 5#8 (.fields 20#16) ∧
    decodeCommand 0x15#8 5#8 [0x00#8] = .setDay 5#8 .malformed := by decide +kernel
/-- R193: in an ANNOUNCE TITLE the due day and the lags keep their bytes when they are absent, and what stands there is disregarded. -/
theorem test_absent_fields_keep_their_bytes :
    decodeCommand 0x10#8 1#8 ([0x02#8, 0#8] ++ [0x02#8] ++ [0#8, 0#8, 0#8, 7#8] ++ [1#8, 3#8] ++ [0x00#8, 0x12#8, 0x34#8] ++
        [0#8, 12#8, 0#8, 5#8] ++ [0#8, 0#8, 0#8, 24#8] ++ [0x00#8, 0x56#8, 0x01#8, 0#8, 30#8]) =
      .announceTitle 1#8 (.fields ⟨⟨0x02#8, []⟩, .serial, 7#32, 1#8, [.serials], none, some ⟨12#16, 5#16, 24#32, none, some 30#16⟩⟩) ∧
    decodeCommand 0x10#8 1#8 ([0x02#8, 0#8] ++ [0x02#8] ++ [0#8, 0#8, 0#8, 7#8] ++ [1#8, 3#8] ++ [0x00#8] ++
        [0#8, 12#8, 0#8, 5#8] ++ [0#8, 0#8, 0#8, 24#8] ++ [0x00#8, 0x01#8, 0#8, 30#8]) = .announceTitle 1#8 .malformed := by
  decide +kernel
theorem test_no_row_has_bits : decodeTableWord 16 0x1501 = none := by decide +kernel

/-! States to begin from. -/

/-- Power-on values, with lane 7 as given. -/
def onLane (v : Lane) : State := State.blank.setLane 7 v
/-- A configured lane in ACTIVE that holds nothing. -/
def active : Lane :=
  { Lane.reset with state := .active, sync := true, silenceTimer := some 2, configured := true, hold := false }
/-- An item of number 7 that is being read. -/
def reading (os : List HeldObservation) : Item := ⟨7, 7#16, .reading, os, false, none, none, true⟩
/-- An item of number sq that is decided, to outlet 5. -/
def decided (sq : Seq) : Item :=
  ⟨7, sq, .decided, [], false, none, some ⟨.query, some 0, 5, some .noIdentifier, none, none, none, none, false, false, false, false⟩,
    true⟩
/-- The item of number 7 as it stands in the confirm hold. -/
def held : HeldItem := ⟨{ decided 7#16 with state := .confirming }, 5, 500⟩
/-- A MONOGRAPH record of two copies, one of them received. -/
def book : TitleRecord := ⟨bookKey, .expected, 412377, 2, [.preserve, .reading], 3, some 4, .monograph ⟨some 9, 1, .none⟩⟩
/-- A SERIAL record of two copies whose first ordinal has one. -/
def journal : TitleRecord :=
  ⟨serialKey, .expected, 412377, 2, [.serials, .reading], 3, some 4,
    .serial ⟨12, 5, 24, 24, some 24, ⟨1, false⟩ :: List.replicate 63 ⟨0, false⟩, 3, 30⟩⟩
/-- The serial part of journal. -/
def run : SerialPart := ⟨12, 5, 24, 24, some 24, ⟨1, false⟩ :: List.replicate 63 ⟨0, false⟩, 3, 30⟩
/-- Power-on values on day 40, with the records given from slot 0. -/
def shelf (rs : List TitleRecord) : State := { State.blank with table := ⟨rs.mapIdx fun i r => (i, r), some 40⟩ }
/-- A table whose first n slots hold a record each, that n alone names. -/
def filledTable (n : Nat) : TitleTable := ⟨(List.range n).map fun i => (i, { book with key := ⟨.book, [i]⟩ }), some 40⟩

theorem test_filled_table (n : Nat) (h : n ≤ Config.titleSlots) : (filledTable n).wf ∧ (filledTable n).slots.length = n ∧
    ∀ e ∈ (filledTable n).slots, e.2.key ≠ bookKey := by
  refine ⟨⟨?_, ?_, ?_⟩, ?_, ?_⟩
  · simpa [filledTable, Function.comp_def] using List.pairwise_lt_range
  · simp only [filledTable, List.mem_map, List.mem_range]
    rintro e ⟨i, hi, rfl⟩
    exact hi.trans_le h
  · simp only [filledTable, List.map_map, Function.comp_def]
    exact List.nodup_range.map fun a b h => by simpa using h
  · simp [filledTable]
  · simp [filledTable, bookKey]

/-- R193: a notice with its day absent has its detail length at offset 9 and its detail at 10. -/
theorem test_layout_of_notice : (ReportRecord.notice .poweredOn).bytes.length = 11 ∧
    (ReportRecord.notice .poweredOn).bytes[6]? = some 0x00#8 ∧ (ReportRecord.notice .poweredOn).bytes[9]? = some 0x01#8 ∧
    (ReportRecord.notice .poweredOn).bytes[10]? = some 0x01#8 := by decide +kernel
/-- R193: a title record has the same length whether its days and its highest ordinal are there or absent. -/
theorem test_layout_of_title_record : book.bytes.length = 34 ∧ ({ book with lastArrival := none } : TitleRecord).bytes.length = 34 ∧
    journal.bytes.length = 113 ∧
    ({ journal with lastArrival := none, body := .serial { run with h := none } } : TitleRecord).bytes.length = 113 := by decide +kernel

/-! What the hypotheses of the statements ask is met: the host link and the report unit. -/

/-- Eight replies wait. -/
def crowded : State := { State.blank with host := { HostLink.reset with replies := List.replicate 8 ⟨0x81#8, 0#8, .done .empty⟩ } }
/-- The report unit with two records filled, two due. -/
def filledUnit : ReportUnit :=
  { ReportUnit.reset with filled := [.notice .poweredOn, .notice .poweredOn], sendPoint := some 1 }

theorem met_StepRunsTheFrontCommand : State.blank.pending = [] := rfl
theorem met_HostLineErrorsAreCounted :
    8 ≤ crowded.host.replies.length ∧ Instr.frame (.identify 5#8 .malformed) = some (0x01#8, 5#8) ∧
    (0x80#8).toNat ∉ commandCodes ∧ (0x0A#8).toNat ∉ commandCodes ∧ State.blank.listens := by decide +kernel
theorem met_InvalidCommandsAreRefused :
    malformedCommand 0x34#8 1#8 = some (.engineStatus 1#8 .malformed) ∧
    Instr.frame (.readLane 1#8 (.fields 8#8)) = some (0x1B#8, 1#8) ∧ Instr.laneByte (.readLane 1#8 (.fields 8#8)) = some 8#8 ∧
    Instr.frame (.readTitle 1#8 (.fields ⟨0x01#8, badText⟩)) = some (0x13#8, 1#8) ∧
    Instr.keyText (.readTitle 1#8 (.fields ⟨0x01#8, badText⟩)) = some ⟨0x01#8, badText⟩ ∧ keyOf ⟨0x01#8, badText⟩ = none := by
  decide +kernel
theorem met_CommandsReadBackFromTheirFrames : (Instr.setSteering 1#8 (.fields ⟨63#8, 1#16, [3#8]⟩)).wf = true ∧
    encodeCommand (.setSteering 1#8 (.fields ⟨63#8, 1#16, [3#8]⟩)) = some (0x22#8, 1#8, [63#8, 0#8, 1#8, 3#8]) := by
  decide +kernel
/-- A lane record that passes its check and has no type. -/
theorem test_untyped_record (r : StationRecord) : r.bytes ≠ 0x7E#8 :: 0x01#8 :: [0x81#8] := by
  intro h
  simpa [StationRecord.bytes, laneRecord] using congrArg List.length h
theorem met_ReceiversTakeWholeFrames :
    (List.replicate 1024 0#8).length ≤ 1024 ∧ 1024 < (0x04#8 ++ 0x01#8).toNat ∧
    ((0x04#8 ++ 0x00#8).toNat ≤ 1024 ∧ ([1#8, 2#8] : List Byte).length = (0x00#8 ++ 0x00#8).toNat + 2 ∧
      ([0#8, 0#8] : List Byte) ≠ be16 (crc (0x00#8 :: 0x00#8 :: [1#8, 2#8]))) ∧
    (0x5A#8 ≠ 0xA5#8 ∧ ∃ x t, ([0x00#8] : List Byte) = x :: t ∧ x ≠ 0x5A#8) ∧
    ([0#8, 0#8, 0#8] : List Byte).length < (0x00#8 ++ 0x00#8).toNat + 4 ∧
    (StationRecord.confirm 65535#16 7#8).wf = true ∧
    (([0#8] : List Byte).length = (0x01#8).toNat ∧ byteSum (0x7E#8 :: 0x01#8 :: [0#8]) ≠ 0x00#8) ∧
    (([0x81#8] : List Byte).length = (0x01#8).toNat ∧ byteSum (0x7E#8 :: 0x01#8 :: [0x81#8]) = 0x00#8 ∧
      ∀ r : StationRecord, r.wf = true → r.bytes ≠ 0x7E#8 :: 0x01#8 :: [0x81#8]) ∧
    0x7D#8 ≠ 0x7E#8 ∧ ([] : List Byte).length < (0x01#8).toNat ∧
    scanHost (State.blank.host.rx ++ [0xA5#8]).length (State.blank.host.rx ++ [0xA5#8]) = ([], [0xA5#8]) ∧
    (State.blank.lane 7).state = .disabled ∧ ((onLane active).lane 7).state ≠ .disabled ∧
    scanLane (((onLane active).lane 7).rx ++ [0x7E#8]).length (((onLane active).lane 7).rx ++ [0x7E#8]) = ([], [0x7E#8]) :=
  ⟨(List.length_replicate ..).le, by decide, by decide +kernel, ⟨by decide, _, _, rfl, by decide⟩, by decide, by decide, by decide +kernel,
    ⟨by decide, by decide +kernel, fun r _ => test_untyped_record r⟩, by decide +kernel⟩
theorem met_TransmissionsEnd :
    State.reset.host.line ≠ .idle ∧ (State.blank.host.line = .idle ∧ crowded.host.line = .idle ∧
      crowded.host.replies = ⟨0x81#8, 0#8, .done .empty⟩ :: List.replicate 7 ⟨0x81#8, 0#8, .done .empty⟩) ∧
    (State.blank.host.replies = [] ∧ State.blank.report.due = 0) ∧
    (({ State.blank with report := filledUnit } : State).report.reportsHeld = false ∧
      ({ State.blank with report := filledUnit } : State).report.due ≠ 0 ∧
      ({ State.blank with report := { filledUnit with reportsHeld := true } } : State).report.reportsHeld = true) ∧
    ({ HostLink.reset with line := .reply ⟨0x81#8, 0#8, .done .empty⟩ } : HostLink).line = .reply ⟨0x81#8, 0#8, .done .empty⟩ ∧
    (∀ r, State.reset.host.line ≠ .reply r) ∧ State.reset.host.line = .batch 0#8 [.notice .poweredOn] 1 ∧
    (∀ tag rs n, State.blank.host.line ≠ .batch tag rs n) ∧
    (State.blank.lane 7).sending = none ∧
    (((onLane { active with sending := some .hold }).lane 7).sending = some .hold ∧
      ((onLane { active with sending := some .hold }).lane 7).outbox = []) ∧
    ((onLane { active with sending := some .hold, outbox := [.release] }).lane 7).sending = some .hold ∧
    ((onLane { active with sending := some .hold, outbox := [.release] }).lane 7).outbox = [.release] := by
  refine ⟨nofun, ⟨rfl, rfl, rfl⟩, ⟨rfl, rfl⟩, by decide +kernel, rfl, ?_, rfl, ?_, ?_⟩
  · intro r
    simp [State.reset]
  · intro tag rs n
    simp [State.blank, HostLink.reset]
  decide +kernel
theorem met_ReportCommandsSetTheReportUnit :
    State.blank.listens ∧ State.reset.report.filled.length = 0 + 1 ∧
    (State.blank.report.filled = [] ∧ State.blank.report.sendPoint = none) ∧
    (∃ s : State, s.report.holdTimer = some 50 ∧ s.report.filled.length = 1 + 1) ∧ State.blank.report.holdTimer = none ∧
    (enablePairsWf [⟨.tableFull, 3#8⟩, ⟨.accessionExhausted, 1#8⟩] = true ∧
      ∀ p ∈ ([⟨.tableFull, 3#8⟩, ⟨.accessionExhausted, 1#8⟩] : List EnablePair), p.condition = .claimListFull ∨
        p.condition = .reportSpaceLow ∨ p.condition = .tableFull ∨ p.condition = .accessionExhausted) ∧
    (∃ p ∈ ([⟨.started, 1#8⟩] : List EnablePair), p.condition = .started) ∧
    ∃ p ∈ ([⟨.held, 1#8⟩] : List EnablePair), laneCondition p.condition = true := by
  refine ⟨by decide, rfl, ⟨rfl, rfl⟩, ⟨{ State.blank with report := { filledUnit with sendPoint := none, holdTimer := some 50 } }, rfl, rfl⟩, rfl, ?_⟩
  decide +kernel
theorem met_ReportRecordsAreFilled :
    State.blank.report.usedNonItem < 16 ∧ 16 ≤ ({ ReportUnit.reset with reservedNonItem := 16 } : ReportUnit).usedNonItem ∧
    3 ≤ ({ ReportUnit.reset with filled := List.replicate 3 (.notice .poweredOn) } : ReportUnit).filled.length ∧
    ({ ReportUnit.reset with filled := [.notice .poweredOn], reservedItem := 465 } : ReportUnit).unreserved < 32 ∧
    ({ ReportUnit.reset with holdTime := 0 } : ReportUnit).holdTime = 0 ∧
    filledUnit.filled.length < 3 ∧ 32 ≤ ({ filledUnit with filled := filledUnit.filled ++ [.notice .poweredOn] } : ReportUnit).unreserved ∧
    filledUnit.holdTime ≠ 0 := by decide +kernel
/-- Two records filled and n item slots reserved. -/
def reserving (n : Nat) : ReportUnit := { filledUnit with reservedItem := n }
theorem met_ReportSpaceIsSettled :
    (reserving 464).unreserved = 32 ∧ (reserving 465).unreserved = 31 ∧ (reserving 495).unreserved = 1 ∧
    (reserving 496).unreserved = 0 ∧ (reserving 465).spaceLow = false ∧ (reserving 465).filled ≠ [] ∧
    ({ reserving 464 with spaceLow := true } : ReportUnit).spaceLow = true := by decide +kernel
theorem met_ClearKeepsOnlyTheHostLink : State.blank.listens := by decide
theorem met_RestartKeepsTheAccount : State.reset.listens ∧ State.reset.lanesWf ∧ State.reset.consignWf := by
  decide +kernel
theorem met_ReadCommandsChangeNothing : State.reset.listens := by decide
theorem met_LaneReadsShowTheWholeStanding : State.reset.listens ∧ (7#8).toNat = (7 : LaneId).val ∧ 8 ≤ (8#8).toNat := by decide

/-! The hypotheses of the statements about titles, settings, claims and the engine. -/

/-- The fields of an ANNOUNCE TITLE of bookKey; the command of a SERIAL with the largest values; AMEND TITLE with nothing given. -/
def announceBook : AnnounceFields := ⟨⟨0x01#8, bookText⟩, .monograph, 999999#32, 1#8, [.preserve], some 0#16, none⟩
def announceJournal : AnnounceFields :=
  ⟨⟨0x02#8, serialText⟩, .serial, 0#32, 4#8, [.serials, .reading, .transfer, .preserve], none,
    some ⟨999#16, 0#16, 65535999#32, some 15#8, some 365#16⟩⟩
def amend (kt : KeyText) : AmendFields := ⟨kt, none, none, .keep, none, none, none⟩
def kb : KeyText := ⟨0x01#8, bookText⟩
def ks : KeyText := ⟨0x02#8, serialText⟩
/-- The record of book as a tombstone; as it was before its Q was raised. -/
def gone : TitleRecord := { book with status := .withdrawn }
def wholeBook : TitleRecord := { book with status := .complete, q := 1, plan := [.preserve] }

theorem finds_book : (shelf [book, journal]).finds kb 0 book := ⟨by decide +kernel, by decide +kernel, by decide +kernel⟩
theorem finds_journal : (shelf [book, journal]).finds ks 1 journal := ⟨by decide +kernel, by decide +kernel, by decide +kernel⟩
theorem finds_gone : (shelf [gone]).finds kb 0 gone := ⟨by decide +kernel, by decide +kernel, by decide +kernel⟩
theorem finds_whole : (shelf [wholeBook]).finds kb 0 wholeBook := ⟨by decide +kernel, by decide +kernel, by decide +kernel⟩
theorem lacks_book : (shelf [journal]).lacks kb bookKey := ⟨by decide +kernel, by decide +kernel⟩
theorem accepted_book : AnnounceFields.accepted announceBook bookKey := by simp [AnnounceFields.accepted, announceBook, bookKey, KeyScheme.allows]
theorem accepted_journal : AnnounceFields.accepted announceJournal serialKey := by
  simp [AnnounceFields.accepted, announceJournal, serialKey, KeyScheme.allows]

theorem met_TitlesAreReadAndListed :
    keyOf ⟨0x01#8, badText⟩ = none ∧ (shelf [journal]).lacks kb bookKey ∧ (shelf [book, journal]).finds kb 0 book ∧
    8192 < (8193#16).toNat ∧ 8 < (9#16).toNat ∧ (shelf [book]).table.wf ∧ (8192#16).toNat ≤ 8192 ∧ 1 ≤ (8#16).toNat ∧
    (8#16).toNat ≤ 8 := ⟨by decide +kernel, lacks_book, finds_book, by decide +kernel⟩
theorem met_AnnounceTitleInsertsOrReplaces :
    (keyOf kb = some bookKey ∧ ¬ AnnounceFields.accepted { announceBook with q := 5#8 } bookKey) ∧
    (({ State.blank with table := filledTable 8192 } : State).table.wf ∧
      ({ State.blank with table := filledTable 8192 } : State).lacks announceBook.key bookKey ∧
      ({ State.blank with table := filledTable 8192 } : State).table.slots.length = 8192) ∧
    ((shelf [journal]).table.wf ∧ (shelf [journal]).lacks announceBook.key bookKey ∧ AnnounceFields.accepted announceBook bookKey ∧
      (∀ e ∈ (shelf [journal]).table.slots, e.1 ≠ 1) ∧ ∀ m, m < 1 → ∃ e ∈ (shelf [journal]).table.slots, e.1 = m) ∧
    (shelf [book, journal]).finds announceJournal.key 1 journal ∧ AnnounceFields.accepted announceJournal journal.key ∧
    State.listens { State.blank with table := filledTable 8192 } ∧ (shelf [book, journal]).listens := by
  refine ⟨⟨by decide +kernel, ?_⟩, ⟨(test_filled_table 8192 le_rfl).1, ⟨by decide +kernel, (test_filled_table 8192 le_rfl).2.2⟩,
      (test_filled_table 8192 le_rfl).2.1⟩,
    ⟨by decide +kernel, lacks_book, accepted_book, by decide +kernel, by decide +kernel⟩, finds_journal, accepted_journal, ?_, ?_⟩
  · simp [AnnounceFields.accepted]
  · decide
  · decide +kernel
theorem met_AmendTitleIsChecked :
    (¬ AmendFields.inRanges { amend kb with publisher := some 1000000#32 }) ∧
    ((shelf [journal]).lacks kb bookKey ∧ AmendFields.inRanges (amend kb)) ∧
    ((shelf [gone]).finds kb 0 gone ∧ gone.status = .withdrawn) ∧
    (shelf [book, journal]).finds ks 1 journal ∧ AmendFields.inRanges { amend ks with due := .set 9#16 } ∧
    ¬ AmendFields.suits { amend ks with due := .set 9#16 } journal := by
  refine ⟨?_, ⟨lacks_book, ?_⟩, ⟨finds_gone, rfl⟩, finds_journal, ?_, ?_⟩ <;>
    simp [AmendFields.inRanges, AmendFields.suits, amend, journal, TitleRecord.kind]
/-- The amendments of the next two theorems: Q down to the copies received, Q up above them, both lags at their limits. -/
def fewer : AmendFields := { amend kb with q := some 1#8, plan := some [.reading] }
def more : AmendFields := { amend kb with q := some 4#8, plan := some [.reading, .preserve, .serials, .transfer], due := .remove }
def lags : AmendFields := { amend ks with gapLag := some 15#8, dayLag := some 365#16, publisher := some 999999#32 }
theorem met_AmendTitleSettlesMonographs :
    ((shelf [book, journal]).finds kb 0 book ∧ AmendFields.inRanges fewer ∧ AmendFields.suits fewer book ∧ book.status = .expected) ∧
    (shelf [wholeBook]).finds kb 0 wholeBook ∧ AmendFields.inRanges more ∧ AmendFields.suits more wholeBook ∧ wholeBook.status = .complete := by
  refine ⟨⟨finds_book, ?_, ?_, rfl⟩, finds_whole, ?_, ?_, rfl⟩ <;>
    simp [AmendFields.inRanges, AmendFields.suits, fewer, more, amend, book, wholeBook, TitleRecord.kind]
theorem met_AmendTitleAdvancesSerials :
    (shelf [book, journal]).finds ks 1 journal ∧ journal.status ≠ .withdrawn ∧ journal.body = .serial run ∧ AmendFields.inRanges lags ∧
    AmendFields.suits lags journal ∧ run.cells.length = 64 ∧ 1 ≤ journal.q := by
  refine ⟨finds_journal, by decide, rfl, ?_, ?_, by decide, by decide⟩ <;>
    simp [AmendFields.inRanges, AmendFields.suits, lags, amend, journal, TitleRecord.kind]
theorem met_WithdrawTitleMakesTombstones :
    keyOf ⟨0x01#8, badText⟩ = none ∧ (shelf [journal]).lacks kb bookKey ∧ (shelf [gone]).finds kb 0 gone ∧
    gone.status = .withdrawn ∧ (shelf [book, journal]).finds kb 0 book ∧ book.status ≠ .withdrawn :=
  ⟨by decide +kernel, lacks_book, finds_gone, rfl, finds_book, by decide⟩
theorem met_SetRunRepositionsTheWindow :
    keyOf ⟨0x01#8, badText⟩ = none ∧ 65535999 < (65536000#32).toNat ∧ (65535999#32).toNat ≤ 65535999 ∧
    (shelf [journal]).lacks kb bookKey ∧ ((shelf [gone]).finds kb 0 gone ∧ gone.status = .withdrawn) ∧
    ((shelf [book, journal]).finds kb 0 book ∧ book.status ≠ .withdrawn ∧ book.kind = .monograph) ∧
    (shelf [book, journal]).finds ks 1 journal ∧ journal.body = .serial run :=
  ⟨by decide +kernel, by decide, by decide, lacks_book, ⟨finds_gone, rfl⟩, ⟨finds_book, by decide, rfl⟩, finds_journal, rfl⟩
theorem met_SettingsAreTaken :
    (0#32).toNat = 0 ∧ 99999999 < (100000000#32).toNat ∧ (99999999#32).toNat ≤ 99999999 ∧
    ({ DecisionUnit.reset with last := some 5 } : DecisionUnit).last = some 5 ∧ (5#32).toNat ≤ 5 ∧
    (∀ m, State.blank.decision.last = some m → m < (1#32).toNat) ∧
    (64 < (63#8).toNat + (2#16).toNat ∧ ([0#8, 1#8] : List Byte).length = (2#16).toNat) ∧ (∃ d ∈ ([4#8] : List Byte), 3 < d.toNat) ∧
    ((63#8).toNat + (1#16).toNat ≤ 64 ∧ ([3#8] : List Byte).length = (1#16).toNat ∧ ∀ d ∈ ([3#8] : List Byte), d.toNat ≤ 3) := by
  refine ⟨by decide, by decide, by decide, rfl, by decide, by simp [State.blank, DecisionUnit.reset], by decide⟩
theorem met_TakeClaimsRemovesTheOldest :
    16 < (17#16).toNat ∧ (shelf [book]).table.wf ∧ 1 ≤ (16#16).toNat ∧ (16#16).toNat ≤ 16 := by decide +kernel

/-- A claim list of two ISSUES entries of one key; its second is the range 30 to 31. -/
def older : ClaimEntry := ⟨serialKey, .issues 20 20, 2, .gap, 5⟩
def newer : ClaimEntry := ⟨serialKey, .issues 30 31, 2, .overdue, 6⟩
def twoClaims : ClaimList := ⟨[older, newer], 0, 30⟩
def fullClaims : ClaimList := ⟨List.replicate 256 older, 0, 30⟩
theorem met_IssueClaimsAreRaisedAndSatisfied :
    (twoClaims.wf ∧ twoClaims.entries = [older] ++ newer :: [] ∧ (∀ x ∈ [older], x.meets serialKey 32 33 = false) ∧
      newer.meets serialKey 32 33 = true) ∧
    ((∀ x ∈ twoClaims.entries, x.meets serialKey 22 28 = false) ∧ twoClaims.entries.length < 256) ∧
    ((∀ x ∈ fullClaims.entries, x.meets serialKey 22 28 = false) ∧ 256 ≤ fullClaims.entries.length) ∧
    (twoClaims.entries = [] ++ older :: [newer] ∧ older.key = serialKey ∧ older.body = .issues 20 20 ∧ 20 ≤ 20) ∧
    (newer.body = .issues 30 31 ∧ 30 ≤ 31 ∧ 31 ≤ 31) ∧
    ∀ e ∈ twoClaims.entries, ∀ a b, e.key = serialKey → e.body = .issues a b → ¬ (a ≤ 25 ∧ 25 ≤ b) := by
  refine ⟨by decide +kernel, by decide +kernel, by decide +kernel, by decide +kernel, by decide +kernel, ?_⟩
  simp [twoClaims, older, newer]

/-- The engine at slot n of an operation. -/
def walking (op : Operation) (n : Nat) : EngineContext := ⟨op, 0, n, 0, 0, 0, 0⟩
/-- A FIND of publisher code 412377 from the slot given, tombstones left out. -/
def findPublisher (start : Half) : FindFields := ⟨.publisherCode, .equal, 412377#32, start, false⟩
def walk (rs : List TitleRecord) (op : Operation) (n : Nat) : State :=
  { shelf rs with engine := some (walking op n), report := { ReportUnit.reset with reservedNonItem := 1 } }
theorem met_LongCommandsAreAccepted :
    (¬ (Operation.find (findPublisher 8193#16)).inRange ∧ ¬ (Operation.find ⟨.copiesOutstanding, .equal, 5#32, 0#16, false⟩).inRange ∧
      ¬ (Operation.find ⟨.dueDay, .equal, 65536#32, 0#16, false⟩).inRange) ∧
    (Operation.sweep.inRange ∧ (walk [book] .purge 8191).engine = some (walking .purge 8191)) ∧
    (State.blank.engine = none ∧ State.blank.table.day = none) ∧
    (((Operation.purge = .sweep) → State.blank.table.day ≠ none) ∧ (Operation.find (findPublisher 8191#16)).inRange ∧
      (Operation.find (findPublisher 8191#16)).startSlot < 8192 ∧ State.blank.report.usedNonItem < 16 ∧
      16 ≤ ({ State.blank with report := { ReportUnit.reset with reservedNonItem := 16 } } : State).report.usedNonItem) ∧
    (Operation.find (findPublisher 8192#16)).inRange ∧ (findPublisher 8192#16).start.toNat = 8192 := by
  refine ⟨?_, ⟨trivial, rfl⟩, ⟨rfl, rfl⟩, ⟨nofun, ?_, by decide, by decide, by decide⟩, ?_, rfl⟩ <;>
    simp [Operation.inRange, findPublisher]
theorem met_AbortEndsTheOperation :
    State.blank.engine = none ∧ (walk [book] .sweep 3).engine = some (walking .sweep 3) ∧
    (∀ e f, (walk [book] .sweep 3).engine = some e → e.op ≠ .find f) ∧
    (∀ e, (walk [book] .purge 3).engine = some e → e.op ≠ .sweep) ∧ ∀ e, (walk [book] .sweep 3).engine = some e → e.op ≠ .purge := by
  refine ⟨rfl, rfl, fun e f h => ?_, fun e h => ?_, fun e h => ?_⟩ <;>
    simp only [walk, walking, Option.some.injEq] at h <;> subst h <;> simp
theorem met_FindAndPurgeExamineOneSlot :
    ((walk [book] (.find (findPublisher 0#16)) 0).table.wf ∧
      (walk [book] (.find (findPublisher 0#16)) 0).engine = some (walking (.find (findPublisher 0#16)) 0) ∧
      (0, book) ∈ (walk [book] (.find (findPublisher 0#16)) 0).table.slots ∧ FindFields.met (findPublisher 0#16) book) ∧
    ((walk [gone] (.find (findPublisher 0#16)) 0).table.wf ∧ (0, gone) ∈ (walk [gone] (.find (findPublisher 0#16)) 0).table.slots ∧
      ¬ FindFields.met (findPublisher 0#16) gone) ∧
    (∀ x ∈ (walk [book] (.find (findPublisher 0#16)) 8191).table.slots, x.1 ≠ 8191) ∧
    ((walk [gone, journal] .purge 0).table.wf ∧ (walk [gone, journal] .purge 0).engine = some (walking .purge 0) ∧
      (0, gone) ∈ (walk [gone, journal] .purge 0).table.slots ∧ gone.status = .withdrawn) ∧
    ((1, journal) ∈ (walk [gone, journal] .purge 1).table.slots ∧ journal.status ≠ .withdrawn) ∧
    ∀ x ∈ (walk [gone, journal] .purge 8191).table.slots, x.1 ≠ 8191 := by
  refine ⟨⟨by decide +kernel, rfl, by decide +kernel, ?_⟩, ⟨by decide +kernel, by decide +kernel, ?_⟩, by decide +kernel,
    ⟨by decide +kernel, rfl, by decide +kernel, rfl⟩, ⟨by decide +kernel, by decide⟩, by decide +kernel⟩ <;>
    simp [FindFields.met, findPublisher, book, gone]
theorem met_SweepExaminesOneSlot :
    ((walk [book, journal] .sweep 0).table.wf ∧ (walk [book, journal] .sweep 0).engine = some (walking .sweep 0) ∧
      (0, book) ∈ (walk [book, journal] .sweep 0).table.slots ∧ book.body = .monograph ⟨some 9, 1, .none⟩ ∧
      (walk [book, journal] .sweep 0).table.day = some 40 ∧ 9 + (walk [book, journal] .sweep 0).claims.grace < 40) ∧
    ((walk [wholeBook] .sweep 0).table.wf ∧ (0, wholeBook) ∈ (walk [wholeBook] .sweep 0).table.slots ∧
      (∀ m, wholeBook.body = .monograph m → wholeBook.status ≠ .expected) ∧ ∀ p, wholeBook.body ≠ .serial p) ∧
    ∀ x ∈ (walk [book] .sweep 8191).table.slots, x.1 ≠ 8191 := by
  refine ⟨?_, ⟨by decide +kernel, by decide +kernel, ?_, ?_⟩, by decide +kernel⟩
  · decide +kernel
  · exact fun _ _ => by decide
  · simp [wholeBook, book]
theorem met_SweepRaisesOverdueSerials :
    (walk [book, journal] .sweep 1).table.wf ∧ run.wf ∧ (walk [book, journal] .sweep 1).engine = some (walking .sweep 1) ∧
    (1, journal) ∈ (walk [book, journal] .sweep 1).table.slots ∧ journal.body = .serial run ∧ journal.status = .expected ∧
    0 < run.dayLag ∧ journal.lastArrival.getD journal.announceDay + run.dayLag < 40 ∧
    (walk [book, journal] .sweep 1).table.day = some 40 := by decide +kernel

/-! The hypotheses of the statements about lanes. -/

/-- What CONFIGURE LANE gives when it gives every field; nothing but the enables; nothing. -/
def allFields : ConfigureFields :=
  ⟨7#8, some 25#8, some (List.replicate 10 7#8), some .header, some 0#8, some 2001#16, some [⟨.held, 3#8⟩, ⟨.phantom, 1#8⟩]⟩
def onlyEnables : ConfigureFields := ⟨7#8, none, none, none, none, none, some []⟩
def noFields : ConfigureFields := ⟨7#8, none, none, none, none, none, none⟩
theorem met_ConfigureLaneSetsTheFieldsGiven :
    (noFields.depth = none ∧ noFields.outlets = none ∧ noFields.slip = none ∧ noFields.silence = none ∧ noFields.confirm = none ∧
      noFields.enables = none ∧ noFields.lane.toNat = (7 : LaneId).val) ∧
    (∃ x ∈ (List.replicate 9 7#8 ++ [8#8] : List Byte), 7 < x.toNat) ∧
    (∃ p ∈ ([⟨.started, 1#8⟩] : List EnablePair), laneCondition p.condition = false) ∧
    (allFields.wf = true ∧ (∀ o, allFields.outlets = some o → ∀ x ∈ o, x.toNat ≤ 7) ∧
      (∀ ps, allFields.enables = some ps → ∀ p ∈ ps, laneCondition p.condition = true) ∧ allFields.depth ≠ none ∧
      ((onLane active).lane 7).state ≠ .disabled ∧ (State.blank.lane 7).state = .disabled) ∧
    onlyEnables.wf = true ∧ (∀ ps, onlyEnables.enables = some ps → ∀ p ∈ ps, laneCondition p.condition = true) ∧
    onlyEnables.enables ≠ none ∧ onlyEnables.depth = none ∧ onlyEnables.outlets = none ∧ onlyEnables.slip = none ∧
    onlyEnables.silence = none ∧ onlyEnables.confirm = none := by
  refine ⟨by decide, by decide, by decide, ⟨by decide +kernel, ?_, ?_, by decide, by decide +kernel, by decide +kernel⟩, by decide, ?_, by decide⟩
  · rintro o h
    cases h
    decide +kernel
  · rintro ps h
    cases h
    decide
  · rintro ps h
    cases h
    decide
/-- A state in which lane 7, configured, may be enabled in NORMAL. -/
def prepared : State :=
  { onLane { Lane.reset with configured := true } with
    table := ⟨[], some 0⟩
    decision := { DecisionUnit.reset with baseSet := true, next := some 1 } }
theorem met_EnableLaneEntersService :
    ((onLane active).lane 7).state ≠ .disabled ∧
    ((State.blank.lane 7).state = .disabled ∧ (State.blank.lane 7).configured = false ∧ State.blank.table.day = none ∧
      (State.blank.lane 7).mode = .normal ∧ State.blank.decision.baseSet = false) ∧
    (prepared.lane 7).state = .disabled ∧ (prepared.lane 7).configured = true ∧ prepared.table.day ≠ none ∧
    prepared.decision.baseSet = true := by decide +kernel
theorem met_DisableLaneFlushesAndCloses :
    (State.blank.lane 7).state = .disabled ∧ ((onLane active).lane 7).state ≠ .disabled ∧
    ((onLane { active with state := .stopped, hold := true }).lane 7).state ≠ .disabled := by decide +kernel
theorem met_LaneSettingsCommands :
    ((onLane { active with faults := 3, faultLevel := true }).lane 7).faultLevel = true ∧
    ((onLane { active with faults := 2 }).lane 7).faultLevel = false ∧ ((onLane active).lane 7).state ≠ .disabled ∧
    (State.blank.lane 7).state = .disabled ∧ ((onLane active).lane 7).mode ≠ .test ∧
    (((onLane { active with mode := .test, state := .stopped }).lane 7).state ≠ .silent ∧
      ((onLane { active with mode := .test, state := .stopped }).lane 7).state ≠ .active) ∧
    ((onLane { active with mode := .test, state := .silent }).lane 7).mode = .test ∧
    ((onLane { active with mode := .test, state := .silent }).lane 7).state = .silent ∧
    ((onLane { active with mode := .test }).lane 7).state = .active := by decide +kernel
/-- An open consignment of lane 7, of two deposits declared, and the part with it open on the lane given. -/
def parcel : Consignment := ⟨1, 412377, 2, 3, 0, 0, 0, 0, 39, false⟩
def withParcel (s : State) : State :=
  { s.setConsignment 7 (some parcel) with report := { ReportUnit.reset with reservedItem := 2 } }
theorem met_CloseConsignmentFillsTheSummary :
    State.blank.consignment 7 = none ∧ (withParcel (onLane active)).consignment 7 = some parcel := by decide +kernel
theorem met_IdleLanesOnlyCount :
    (State.blank.lane 7).state = .disabled ∧ ((onLane active).lane 7).state ≠ .disabled ∧
    (StationRecord.confirm 1#16 8#8).wf = false ∧ ((onLane { active with state := .stopped, hold := true }).lane 7).state = .stopped ∧
    (StationRecord.itemBegin 1#16).wf = true ∧ recordType (.itemBegin 1#16) ≠ .heartbeat := by decide +kernel
theorem met_HoldFlagAndLevelFollow :
    ((onLane active).lane 7).holdConditions = ((onLane active).lane 7).hold ∧
    (((onLane { active with noSpace := true }).lane 7).holdConditions = true ∧ ((onLane { active with noSpace := true }).lane 7).hold = false) ∧
    (((onLane { active with hold := true }).lane 7).holdConditions = false ∧ ((onLane { active with hold := true }).lane 7).hold = true) ∧
    (active.sending = none ∧ active.outbox = []) ∧ ({ active with sending := some .hold } : Lane).sending = some .hold ∧
    ((onLane active).lane 7).level = .empty ∧ ((onLane { active with queue := [decided 7#16] }).lane 7).level ≠ .empty := by
  decide +kernel
theorem met_SilentLanesEnterActive :
    (((onLane { active with state := .silent, sync := false, hold := true }).lane 7).state = .silent ∧
      ((onLane { active with state := .silent, sync := false, hold := true }).lane 7).sync = false ∧
      (StationRecord.atGate 1#16).wf = true ∧ recordType (.atGate 1#16) ≠ .heartbeat) ∧
    ((onLane { active with state := .silent, hold := true }).lane 7).state = .silent ∧
    ((onLane { active with state := .silent, hold := true }).lane 7).sync = true ∧
    (StationRecord.heartbeat .running .ready).wf = true ∧ recordType (.heartbeat .running .ready) = .heartbeat := by decide +kernel
theorem acts_active (v : Lane) (r : StationRecord) (h : v.state = .active) (m : v.mode ≠ .echo) (w : r.wf = true) :
    (onLane v).acts 7 r := by
  simp [State.acts, onLane, State.lane, State.setLane, h, m, w]
theorem met_HeartbeatsTimersAndNews :
    (onLane active).acts 7 (.heartbeat .stopped .notReady) ∧
    (((onLane active).lane 7).state = .active ∧ ((onLane active).lane 7).silenceTimer ≠ none) ∧
    (((onLane { active with state := .silent, hold := true }).lane 7).state = .silent ∧
      ((onLane { active with state := .silent, hold := true }).lane 7).silenceTimer ≠ none) ∧
    (State.blank.lane 7).silenceTimer = none ∧ ((onLane { active with state := .stopped }).lane 7).state = .stopped ∧
    ((onLane active).lane 7).news = [] ∧ ((onLane { active with news := [true, false] }).lane 7).news = true :: [false] :=
  ⟨acts_active active _ rfl (by decide) rfl, by decide +kernel⟩
/-- A lane whose next number is 100, with no item. -/
def expecting : Lane := { active with expected := some 100#16 }
/-- A lane whose last item, of number 7, is being read behind a decided one. -/
def inReading : Lane := { active with expected := some 8#16, queue := [decided 6#16, reading []] }
theorem met_BreachesAreStaleOrViolations :
    (((onLane expecting).lane 7).stale 36#16 = true ∧ ((onLane expecting).lane 7).stale 99#16 = true ∧
      ((onLane expecting).lane 7).stale 35#16 = false ∧ ((onLane expecting).lane 7).stale 100#16 = false ∧
      (∀ i ∈ ((onLane expecting).lane 7).queue, i.sq ≠ 36#16) ∧ ((onLane expecting).lane 7).namesReading 36#16 = false ∧
      ((onLane expecting).lane 7).held = none) ∧
    ((onLane expecting).acts 7 (.atGate 36#16) ∧ (onLane expecting).acts 7 (.observation 35#16 (.weight 1#16)) ∧
      (onLane expecting).acts 7 (.itemEnd 35#16 none) ∧ (onLane expecting).acts 7 (.confirm 36#16 0#8)) ∧
    ((onLane inReading).acts 7 (.itemBegin 8#16) ∧ ((onLane inReading).lane 7).readingItem.isSome = true) ∧
    ((onLane expecting).acts 7 (.itemBegin 101#16) ∧ ((onLane expecting).lane 7).readingItem = none ∧
      ((onLane expecting).lane 7).expected = some 100#16) ∧
    (onLane inReading).acts 7 (.atGate 9#16) ∧ (∀ i ∈ ((onLane inReading).lane 7).queue, i.sq ≠ 9#16) ∧
    ((onLane inReading).lane 7).stale 9#16 = false ∧ ((onLane inReading).lane 7).queue ≠ [] := by
  refine ⟨by decide +kernel, ⟨?_, ?_, ?_, ?_⟩, ⟨?_, by decide +kernel⟩, ⟨?_, by decide +kernel⟩, ?_, by decide +kernel⟩ <;>
    exact acts_active _ _ rfl (by decide) (by decide)
theorem met_ItemsAreRefusedOrAdmitted :
    ((onLane { expecting with noSpace := true, hold := true }).acts 7 (.itemBegin 100#16) ∧
      ((onLane { expecting with noSpace := true, hold := true }).lane 7).hold = true) ∧
    ((onLane expecting).acts 7 (.itemBegin 100#16) ∧ ((onLane expecting).lane 7).readingItem = none ∧
      ((onLane expecting).lane 7).expected = some 100#16 ∧ ((onLane expecting).lane 7).hold = false ∧
      accounts ((onLane expecting).lane 7).mode = true ∧
      496 ≤ ({ onLane expecting with report := { ReportUnit.reset with reservedItem := 496 } } : State).report.usedItem) ∧
    ((onLane { expecting with mode := .test }).acts 7 (.itemBegin 100#16) ∧ ((onLane { expecting with mode := .test }).lane 7).mode = .test) ∧
    (withParcel (onLane expecting)).consignment 7 = some parcel ∧
    ({ onLane expecting with report := { ReportUnit.reset with reservedItem := 495 } } : State).report.usedItem < 496 ∧
    (onLane expecting).consignment 7 = none := by
  refine ⟨⟨?_, by decide +kernel⟩, ⟨?_, by decide +kernel⟩, ⟨?_, by decide +kernel⟩, by decide +kernel⟩ <;>
    exact acts_active _ _ rfl (by decide) (by decide)
theorem met_ObservationsJoinTheItem :
    ((onLane inReading).acts 7 (.observation 7#16 (.weight 1#16)) ∧ ((onLane inReading).lane 7).readingItem = some (reading []) ∧
      (reading []).sq = 7#16) ∧
    (∃ i, ((onLane { inReading with queue := [reading (List.replicate 8 (.weight 1#16))] }).lane 7).readingItem = some i ∧
      i.observations.length = 8) :=
  ⟨⟨acts_active _ _ rfl (by decide) (by decide), by decide +kernel⟩, reading (List.replicate 8 (.weight 1#16)), by decide +kernel⟩
theorem met_EchoesAndTestItems :
    (((onLane { active with mode := .echo }).lane 7).state = .active ∧ ((onLane { active with mode := .echo }).lane 7).mode = .echo ∧
      (StationRecord.atGate 1#16).wf = true) ∧
    (((onLane active).lane 7).mode ≠ .test ∧ ((onLane { active with state := .silent }).lane 7).state ≠ .active ∧
      4 ≤ ((onLane { active with mode := .test, test := { TestUnit.reset with outstanding := List.replicate 4 ⟨1#15, false⟩ } }).lane
        7).test.outstanding.length) ∧
    ((onLane { active with mode := .test }).lane 7).mode = .test ∧ ((onLane { active with mode := .test }).lane 7).state = .active ∧
    (TestUnit.reset.outstanding.length < 4 ∧ ((onLane { active with mode := .test }).lane 7).test = TestUnit.reset) := by
  decide +kernel
/-- A TEST lane whose item has been read as the LOCAL text given, with the outstanding values given. -/
def testing (text : List Byte) (os : List Outstanding) : Lane :=
  { active with
    mode := .test, expected := some 8#16, queue := [reading [.ident ⟨0x03#8, text, none⟩ .unchecked]]
    test := { TestUnit.reset with outstanding := os } }
theorem met_TestReadingsAreCompared :
    ((onLane (testing localText [])).acts 7 (.itemEnd 7#16 none) ∧
      ((onLane (testing localText [])).lane 7).readingItem = some (reading [.ident ⟨0x03#8, localText, none⟩ .unchecked])) ∧
    (judge ⟨0x03#8, testIdentifier 1#15, none⟩ = .valid ∧ judge ⟨0x03#8, badText, none⟩ = .invalid) ∧
    ((reading [.ident ⟨0x03#8, localText, none⟩ .unchecked]).ended none).idents.find? (fun y => y.scheme == 0x03#8) =
      some ⟨0x03#8, localText, none⟩ ∧
    ((onLane (testing localText [])).lane 7).test.outstanding = [] ∧
    ((onLane (testing (testIdentifier 1#15) [⟨1#15, false⟩])).lane 7).test.outstanding = ⟨1#15, false⟩ :: [] ∧
    ((onLane (testing badText [⟨1#15, true⟩])).lane 7).test.outstanding = ⟨1#15, true⟩ :: [] :=
  ⟨⟨acts_active _ _ rfl (by decide) (by decide), by decide +kernel⟩, by decide +kernel⟩
/-- A lane with an item in its confirm hold, of which it is the newest item. -/
def confirming : Lane := { active with expected := some 8#16, held := some held }
theorem met_ConfirmWindowsClose :
    ((onLane active).lane 7).held = none ∧ ((onLane confirming).lane 7).held = some held ∧
    ((onLane confirming).acts 7 (.confirm 7#16 5#8) ∧ held.item.sq = 7#16 ∧ (5#8).toNat = held.outlet.val) ∧
    (onLane confirming).acts 7 (.confirm 7#16 6#8) ∧ (6#8).toNat ≠ held.outlet.val := by
  refine ⟨by decide +kernel, by decide +kernel, ⟨?_, by decide +kernel⟩, ?_, by decide +kernel⟩ <;>
    exact acts_active _ _ rfl (by decide) (by decide)
/-- Two decided items wait behind the one in the confirm hold, and a third is being read. -/
def queued (m : LaneMode) (level : Bool) : Lane :=
  { active with
    mode := m, expected := some 11#16, held := some held, faultLevel := level
    queue := [decided 8#16, decided 9#16, { reading [] with sq := 10#16 }] }
theorem gates_queued (m : LaneMode) (level : Bool) (h : m ≠ .echo) :
    (onLane (queued m level)).gates 7 9#16 [decided 8#16] (decided 9#16) [{ reading [] with sq := 10#16 }] ∧
    (onLane (queued m level)).gates 7 10#16 [decided 8#16, decided 9#16] { reading [] with sq := 10#16 } [] :=
  ⟨⟨acts_active _ _ rfl h (by decide), rfl, rfl, by decide⟩, acts_active _ _ rfl h (by decide), rfl, rfl, by decide⟩
theorem met_GatesPairItems :
    ((onLane (queued .normal false)).gates 7 9#16 [decided 8#16] (decided 9#16) [{ reading [] with sq := 10#16 }] ∧
      (decided 9#16).state ≠ .reading ∧ (∃ d, (decided 9#16).decision = some d) ∧
      (((onLane (queued .normal false)).lane 7).cut [decided 8#16] []).faultLevel = false ∧
      ((onLane (queued .normal false)).lane 7).mode ≠ .dry) ∧
    ((onLane (queued .dry false)).gates 7 9#16 [decided 8#16] (decided 9#16) [{ reading [] with sq := 10#16 }] ∧
      (((onLane (queued .dry false)).lane 7).cut [decided 8#16] []).faultLevel = false ∧
      ((onLane (queued .dry false)).lane 7).mode = .dry) ∧
    ((onLane (queued .test false)).gates 7 10#16 [decided 8#16, decided 9#16] { reading [] with sq := 10#16 } [] ∧
      ({ reading [] with sq := 10#16 } : Item).state = .reading) ∧
    ((onLane (queued .normal true)).gates 7 9#16 [decided 8#16] (decided 9#16) [{ reading [] with sq := 10#16 }] ∧
      (((onLane (queued .normal true)).lane 7).cut [decided 8#16] []).faultLevel = true) ∧
    (onLane expecting).acts 7 (.atGate 101#16) ∧ ((onLane expecting).lane 7).queue = [] ∧
    ((onLane expecting).lane 7).stale 101#16 = false :=
  ⟨⟨(gates_queued .normal false (by decide)).1, by decide, ⟨_, rfl⟩, by decide +kernel⟩,
    ⟨(gates_queued .dry false (by decide)).1, by decide +kernel⟩, ⟨(gates_queued .test false (by decide)).2, rfl⟩,
    ⟨(gates_queued .normal true (by decide)).1, by decide +kernel⟩, acts_active _ _ rfl (by decide) (by decide), by decide +kernel⟩

/-! The hypotheses of the statements about decisions. -/

/-- An identifier observed, not yet judged. -/
def seen (scheme : Byte) (text : List Byte) (e : Option Enumeration) : HeldObservation := .ident ⟨scheme, text, e⟩ .unchecked
/-- Lane 7 in the mode given reads an item with one identifier, with the records given on the shelf and the accession base set. -/
def deciding (m : LaneMode) (rs : List TitleRecord) (x : HeldObservation) : State :=
  { shelf rs with
    lanes := (onLane { active with mode := m, expected := some 8#16, queue := [reading [x]] }).lanes
    decision := { DecisionUnit.reset with baseSet := true, next := some 99999999 } }
/-- The same with no accession number left. -/
def exhausted (rs : List TitleRecord) (x : HeldObservation) : State :=
  { deciding .normal rs x with decision := { DecisionUnit.reset with baseSet := true, next := some 100000000, last := some 99999999 } }
theorem reads_deciding (m : LaneMode) (rs : List TitleRecord) (x : HeldObservation) (h : accounts m = true) :
    (deciding m rs x).reads 7 7#16 none (reading [x]) :=
  ⟨rfl, h, rfl, by
    intro j hj _
    simpa [deciding, onLane, State.lane, State.setLane] using hj, rfl, rfl⟩
def seenBook : HeldObservation := seen 0x01#8 bookText none
/-- An issue of the journal, whose window starts at ordinal 24: volume 5 counts from 0. -/
def issue (volume : Half) (n : Triple) (span : Byte) : Enumeration := ⟨volume, n, span⟩
def seenIssue (e : Option Enumeration) : HeldObservation := seen 0x02#8 serialText e
theorem chooses_book : choose ((reading [seenBook]).ended none).idents = .key book.key none := by decide +kernel
theorem readsTitle_book (m : LaneMode) (h : accounts m = true) :
    (deciding m [book, journal] seenBook).readsTitle 7 7#16 none (reading [seenBook]) none 0 book :=
  ⟨reads_deciding _ _ _ h, chooses_book, by cases m <;> decide +kernel, by cases m <;> decide +kernel, by decide⟩
theorem readsTitle_whole (m : LaneMode) (h : accounts m = true) :
    (deciding m [wholeBook, journal] seenBook).readsTitle 7 7#16 none (reading [seenBook]) none 0 wholeBook :=
  ⟨reads_deciding _ _ _ h, chooses_book, by cases m <;> decide +kernel, by cases m <;> decide +kernel, by decide⟩
theorem readsTitle_journal (m : LaneMode) (e : Option Enumeration) (h : accounts m = true)
    (c : choose ((reading [seenIssue e]).ended none).idents = .key journal.key e) :
    (deciding m [book, journal] (seenIssue e)).readsTitle 7 7#16 none (reading [seenIssue e]) e 1 journal :=
  ⟨reads_deciding _ _ _ h, c, (by decide +kernel : (shelf [book, journal]).table.wf),
    (by decide +kernel : (1, journal) ∈ (shelf [book, journal]).table.slots), by decide⟩

theorem met_DecisionsThatCommitNothing :
    ((deciding .normal [] (seen 0x01#8 badText none)).reads 7 7#16 none (reading [seen 0x01#8 badText none]) ∧
      choose ((reading [seen 0x01#8 badText none]).ended none).idents = .failed .checkFail) ∧
    ((deciding .dry [journal] seenBook).reads 7 7#16 none (reading [seenBook]) ∧
      choose ((reading [seenBook]).ended none).idents = .key bookKey none ∧
      ∀ x ∈ (deciding .dry [journal] seenBook).table.slots, x.2.key ≠ bookKey) ∧
    ((deciding .normal [gone] seenBook).reads 7 7#16 none (reading [seenBook]) ∧
      choose ((reading [seenBook]).ended none).idents = .key gone.key none ∧ (deciding .normal [gone] seenBook).table.wf ∧
      (0, gone) ∈ (deciding .normal [gone] seenBook).table.slots ∧ gone.status = .withdrawn) :=
  ⟨⟨reads_deciding _ _ _ rfl, by decide +kernel⟩, ⟨reads_deciding _ _ _ rfl, by decide +kernel⟩,
    reads_deciding _ _ _ rfl, by decide +kernel⟩
theorem met_MonographCopiesAreDecided :
    (deciding .normal [book, journal] seenBook).readsTitle 7 7#16 none (reading [seenBook]) none 0 book ∧
    (book.body = .monograph ⟨some 9, 1, .none⟩ ∧ ((deciding .normal [book, journal] seenBook).lane 7).mode = .normal ∧
      1 + 1 ≤ book.q ∧ book.plan[1]? = some .reading ∧
      (deciding .normal [book, journal] seenBook).decision.next = some 99999999) ∧
    (deciding .normal [wholeBook, journal] seenBook).readsTitle 7 7#16 none (reading [seenBook]) none 0 wholeBook ∧ wholeBook.q < 1 + 1 ∧
    ((exhausted [book, journal] seenBook).readsTitle 7 7#16 none (reading [seenBook]) none 0 book ∧
      ∀ a, (exhausted [book, journal] seenBook).decision.next = some a → 99999999 < a) ∧
    (deciding .dry [book, journal] seenBook).readsTitle 7 7#16 none (reading [seenBook]) none 0 book ∧
    (deciding .dry [wholeBook, journal] seenBook).readsTitle 7 7#16 none (reading [seenBook]) none 0 wholeBook ∧
    ((deciding .dry [wholeBook, journal] seenBook).lane 7).mode = .dry := by
  refine ⟨readsTitle_book _ rfl, by decide +kernel, readsTitle_whole _ rfl, by decide, ⟨readsTitle_book .normal rfl, ?_⟩,
    readsTitle_book _ rfl, readsTitle_whole _ rfl, by decide +kernel⟩
  simp [exhausted]

/-- The enumerations of the next theorem: issue 13 of a year of 12, the highest ordinal that is not suspect and the one above it, and issue
12 of volume 6, which has ordinal 23, below the window. -/
def overIssue : Enumeration := issue 5#16 13#24 1#8
def edgeIssue : Enumeration := issue 28#16 5#24 4#8
def farIssue : Enumeration := issue 28#16 6#24 1#8
def lateIssue : Enumeration := issue 6#16 12#24 1#8
def firstIssue : Enumeration := issue 7#16 1#24 1#8
/-- The journal with both copies of its first ordinal received and the next one missing: an arrival of the first is a surplus. -/
def surplusRun : SerialPart := { run with w := 24, cells := ⟨0, false⟩ :: ⟨2, false⟩ :: List.replicate 62 ⟨0, false⟩, h := some 25 }
def surplusJournal : TitleRecord := { journal with body := .serial surplusRun }
def secondIssue : Enumeration := issue 7#16 2#24 1#8
theorem readsTitle_surplus (m : LaneMode) (h : accounts m = true) :
    (deciding m [book, surplusJournal] (seenIssue (some secondIssue))).readsTitle 7 7#16 none (reading [seenIssue (some secondIssue)])
      (some secondIssue) 1 surplusJournal :=
  ⟨reads_deciding _ _ _ h, by decide +kernel, (by decide +kernel : (shelf [book, surplusJournal]).table.wf),
    (by decide +kernel : (1, surplusJournal) ∈ (shelf [book, surplusJournal]).table.slots), by decide⟩
theorem test_ordinals_of_issues :
    run.firstOrdinal edgeIssue = 280 ∧ run.firstOrdinal farIssue = 281 ∧ run.firstOrdinal lateIssue = 23 ∧
    run.firstOrdinal firstIssue = 24 ∧ surplusRun.firstOrdinal secondIssue = 25 := by decide +kernel
theorem misread_cases : run.misread none ∧ run.misread (some overIssue) ∧ ¬ run.misread (some edgeIssue) ∧
    ¬ run.misread (some farIssue) ∧ ¬ run.misread (some lateIssue) ∧ ¬ run.misread (some firstIssue) ∧
    ¬ surplusRun.misread (some secondIssue) := by
  simp [SerialPart.misread, run, surplusRun, issue, overIssue, edgeIssue, farIssue, lateIssue, firstIssue, secondIssue]
theorem tooFar_cases : ¬ run.tooFar 280 ∧ run.tooFar 281 ∧ ¬ run.tooFar 23 ∧ ¬ run.tooFar 24 ∧ ¬ surplusRun.tooFar 25 ∧
    ({ run with h := none } : SerialPart).tooFar 280 ∧ ¬ ({ run with h := none } : SerialPart).tooFar 279 := by
  simp [SerialPart.tooFar, run, surplusRun]
theorem met_IssuesThatCommitNothing :
    (deciding .dry [book, journal] (seenIssue none)).readsTitle 7 7#16 none (reading [seenIssue none]) none 1 journal ∧
    (deciding .normal [book, journal] (seenIssue (some overIssue))).readsTitle 7 7#16 none (reading [seenIssue (some overIssue)])
      (some overIssue) 1 journal ∧ journal.body = .serial run ∧
    (deciding .normal [book, journal] (seenIssue (some farIssue))).readsTitle 7 7#16 none (reading [seenIssue (some farIssue)])
      (some farIssue) 1 journal ∧
    ((exhausted [book, journal] (seenIssue (some edgeIssue))).readsTitle 7 7#16 none (reading [seenIssue (some edgeIssue)])
        (some edgeIssue) 1 journal ∧ run.w ≤ 280 + 4 - 1 ∧ run.copyOrdinal 280 ≤ journal.q ∧
      ∀ a, (exhausted [book, journal] (seenIssue (some edgeIssue))).decision.next = some a → 99999999 < a) ∧
    (deciding .dry [book, journal] (seenIssue (some lateIssue))).readsTitle 7 7#16 none (reading [seenIssue (some lateIssue)])
      (some lateIssue) 1 journal ∧ 23 + 1 - 1 < run.w ∧
    ((deciding .dry [book, journal] (seenIssue (some firstIssue))).readsTitle 7 7#16 none (reading [seenIssue (some firstIssue)])
        (some firstIssue) 1 journal ∧ run.copyOrdinal 24 = 2 ∧ journal.plan[2 - 1]? = some .reading) ∧
    (deciding .dry [book, surplusJournal] (seenIssue (some secondIssue))).readsTitle 7 7#16 none
      (reading [seenIssue (some secondIssue)]) (some secondIssue) 1 surplusJournal ∧
    surplusJournal.q < surplusRun.copyOrdinal 25 := by
  refine ⟨readsTitle_journal _ _ rfl ?_, readsTitle_journal _ _ rfl ?_, rfl, readsTitle_journal _ _ rfl ?_,
    ⟨readsTitle_journal .normal _ rfl ?_, by decide, by decide, ?_⟩, readsTitle_journal _ _ rfl ?_, by decide,
    ⟨readsTitle_journal _ _ rfl ?_, by decide⟩, readsTitle_surplus _ rfl, by decide⟩
  case refine_5 => simp [exhausted]
  all_goals decide +kernel
/-- A claim list of one entry: the ordinals a to b of the journal. -/
def claimed (a b : Nat) : ClaimList := ⟨[⟨serialKey, .issues a b, 2, .gap, 5⟩], 0, 30⟩
theorem run_cell (x : Nat) : (run.cell x).count ≤ 1 ∧ (run.cell x).claimed = false := by
  have cells : ∀ c ∈ run.cells, c.count ≤ 1 ∧ c.claimed = false := by decide
  unfold SerialPart.cell
  split
  · exact ⟨Nat.zero_le _, rfl⟩
  · rw [List.getD_eq_getElem?_getD]
    cases h : run.cells[x - run.w]? with
    | none => exact ⟨Nat.zero_le _, rfl⟩
    | some c => exact cells c (List.mem_of_getElem? h)
/-- An arrival at run of the ordinals 280 to 283: the ordinals 24 to 219 slide out, and 220 to 279 are gaps. -/
theorem runs_of_edge : areRunsOf [(24, 219)] (run.slidesOut 2 283) ∧ areRunsOf [(220, 279)] (run.leavesGap 2 280 283) := by
  refine ⟨⟨fun x => ?_, by simp, by simp⟩, ⟨fun x => ?_, by simp, by simp⟩⟩
  · obtain ⟨c, f⟩ := run_cell x
    have w : run.w = 24 := rfl
    simp [SerialPart.slidesOut, f, w]
    omega
  · obtain ⟨c, f⟩ := run_cell x
    have g : run.gapLag = 3 := rfl
    have w : run.w = 24 := rfl
    have h : run.reached 283 = 283 := rfl
    simp [SerialPart.leavesGap, SerialPart.marked, f, g, w, h]
    split <;> omega
/-- An arrival at surplusRun of the ordinal 25: nothing slides out, and no gap is left. -/
theorem runs_of_surplus : areRunsOf [] (surplusRun.slidesOut 2 25) ∧ areRunsOf [] (surplusRun.leavesGap 2 25 25) := by
  have w : surplusRun.w = 24 := rfl
  have h : surplusRun.reached 25 = 25 := rfl
  have g : surplusRun.gapLag = 3 := rfl
  refine ⟨⟨fun x => ?_, by simp, by simp⟩, ⟨fun x => ?_, by simp, by simp⟩⟩ <;>
    simp only [SerialPart.slidesOut, SerialPart.leavesGap, w, h, g, List.not_mem_nil, false_and, exists_false, false_iff] <;> omega
/-- The satisfaction of ordinal 23 trims one entry, lies within the other, and finds none. -/
theorem indicates_late : (claimed 23 23).indicates serialKey 2 40 (run.behindRequests 23 23) true false ∧
    (claimed 22 24).indicates serialKey 2 40 (run.behindRequests 23 23) false true ∧
    ClaimList.reset.indicates serialKey 2 40 (run.behindRequests 23 23) false false := by
  have one : run.behindRequests 23 23 = [.satisfy 23 false] := by decide +kernel
  have trimmed : ((claimed 23 23).satisfy serialKey 23).2 = .trimmed := by decide +kernel
  have interior : ((claimed 22 24).satisfy serialKey 23).2 = .interior := by decide +kernel
  have absent : (ClaimList.reset.satisfy serialKey 23).2 = .notFound := by decide +kernel
  rw [one]
  simp [ClaimList.indicates, answers_cons, not_answers_nil, trimmed, interior, absent]
theorem met_IssuesAreCommitted :
    ((deciding .normal [book, journal] (seenIssue (some lateIssue))).readsTitle 7 7#16 none (reading [seenIssue (some lateIssue)])
        (some lateIssue) 1 journal ∧ ((deciding .normal [book, journal] (seenIssue (some lateIssue))).lane 7).mode = .normal ∧
      23 = run.firstOrdinal lateIssue ∧ 23 + lateIssue.span.toNat - 1 = 23 ∧ 23 < run.w ∧
      ClaimList.reset.indicates serialKey 2 40 (run.behindRequests 23 23) false false) ∧
    ((deciding .normal [book, journal] (seenIssue (some edgeIssue))).readsTitle 7 7#16 none (reading [seenIssue (some edgeIssue)])
        (some edgeIssue) 1 journal ∧ run.wf ∧ 1 ≤ journal.q ∧ 280 = run.firstOrdinal edgeIssue ∧ 280 + edgeIssue.span.toNat - 1 = 283 ∧
      run.w ≤ 283 ∧ run.copyOrdinal 280 ≤ journal.q ∧ journal.plan[run.copyOrdinal 280 - 1]? = some .serials ∧
      (deciding .normal [book, journal] (seenIssue (some edgeIssue))).decision.next = some 99999999 ∧
      areRunsOf [(24, 219)] (run.slidesOut journal.q 283) ∧ areRunsOf [(220, 279)] (run.leavesGap journal.q 280 283) ∧
      run.requests 2 280 283 [(24, 219)] [(220, 279)] = [.raise 24 219 .slidOut, .raise 220 279 .gap] ∧
      ClaimList.reset.indicates serialKey 2 40 [.raise 24 219 .slidOut, .raise 220 279 .gap] false false) ∧
    (deciding .normal [book, surplusJournal] (seenIssue (some secondIssue))).readsTitle 7 7#16 none
      (reading [seenIssue (some secondIssue)]) (some secondIssue) 1 surplusJournal ∧ surplusRun.wf ∧
    (surplusJournal.q < surplusRun.copyOrdinal 25 ∧ areRunsOf [] (surplusRun.slidesOut surplusJournal.q 25) ∧
      areRunsOf [] (surplusRun.leavesGap surplusJournal.q 25 25) ∧ surplusRun.requests 2 25 25 [] [] = [] ∧
      ClaimList.reset.indicates serialKey 2 40 [] false false) := by
  refine ⟨⟨readsTitle_journal _ _ rfl ?_, by decide +kernel, by decide, by decide, by decide, indicates_late.2.2⟩,
    ⟨readsTitle_journal _ _ rfl ?_, by decide +kernel, by decide, by decide, by decide, by decide, by decide +kernel, by decide +kernel,
      rfl, runs_of_edge.1, runs_of_edge.2, by decide +kernel, ?_⟩,
    readsTitle_surplus _ rfl, by decide +kernel, by decide +kernel, runs_of_surplus.1, runs_of_surplus.2, by decide +kernel, ?_⟩
  · decide +kernel
  · decide +kernel
  · simp [ClaimList.indicates, answers_cons, not_answers_nil]
  · exact indicates_raises _ _ _ _ [] .gap

/-- Lane 7 reads a slip, with slip detection as given; the same with a consignment open. -/
def slipping (d : SlipDetection) (text : List Byte) : State :=
  { State.blank with
    lanes := (onLane { active with
      config := { LaneConfig.default with slip := d }, expected := some 8#16
      queue := [{ reading [seen 0x04#8 text none] with consignment := some 1 }] }).lanes }
def slipItem (text : List Byte) : Item := { reading [seen 0x04#8 text none] with consignment := some 1 }
theorem reads_slipping (d : SlipDetection) (text : List Byte) : (slipping d text).reads 7 7#16 none (slipItem text) :=
  ⟨rfl, rfl, rfl, by
    intro j hj _
    simpa [slipping, slipItem, onLane, State.lane, State.setLane] using hj, rfl, rfl⟩
theorem reads_parcel (d : SlipDetection) (text : List Byte) : (withParcel (slipping d text)).reads 7 7#16 none (slipItem text) :=
  reads_slipping d text
theorem met_SlipsOpenAndCloseConsignments :
    ((withParcel (slipping .off headerText)).consignment 7 = some parcel ∧ some 1 = some parcel.number) ∧
    (∀ c, (slipping .off headerText).consignment 7 = some c → some 1 ≠ some c.number) ∧
    ((slipping .off headerText).reads 7 7#16 none (slipItem headerText) ∧
      choose ((slipItem headerText).ended none).idents = .slip ⟨false, 412377, 0⟩ ∧
      ((slipping .off headerText).lane 7).config.slip = .off) ∧
    ((slipping .header trailerText).reads 7 7#16 none (slipItem trailerText) ∧
      choose ((slipItem trailerText).ended none).idents = .slip ⟨true, 412377, 0⟩ ∧
      ((slipping .header trailerText).lane 7).config.slip = .header) ∧
    ((withParcel (slipping .header headerText)).reads 7 7#16 none (slipItem headerText) ∧
      ((withParcel (slipping .header headerText)).lane 7).config.slip ≠ .off ∧
      1 ≤ (withParcel (slipping .header headerText)).report.reservedItem) ∧
    ((slipping .headerAndTrailer headerText).reads 7 7#16 none (slipItem headerText) ∧
      ((slipping .headerAndTrailer headerText).countMember 7 (some 1) true .slipHeader).consignment 7 = none) ∧
    ((withParcel (slipping .headerAndTrailer trailerText)).reads 7 7#16 none (slipItem trailerText) ∧
      ((withParcel (slipping .headerAndTrailer trailerText)).lane 7).config.slip = .headerAndTrailer ∧
      ((withParcel (slipping .headerAndTrailer trailerText)).countMember 7 (some 1) true .slipTrailer).consignment 7 =
        some { parcel with counted := 2 } ∧ parcel.publisher = 412377) ∧
    (slipping .headerAndTrailer trailerText).reads 7 7#16 none (slipItem trailerText) ∧
    (slipping .headerAndTrailer trailerText).consignment 7 = none ∧
    (slipping .header headerText).report.usedItem < 496 ∧ ({ ReportUnit.reset with reservedItem := 496 } : ReportUnit).usedItem = 496 := by
  refine ⟨by decide +kernel, ?_, ⟨reads_slipping _ _, by decide +kernel⟩, ⟨reads_slipping _ _, by decide +kernel⟩,
    ⟨reads_parcel _ _, by decide +kernel⟩, ⟨reads_slipping _ _, by decide +kernel⟩, ⟨reads_parcel _ _, by decide +kernel⟩,
    reads_slipping _ _, by decide +kernel⟩
  intro c h
  cases (h : (none : Option Consignment) = some c)

/-! The hypotheses of the invariants. -/

theorem met_AccountIsKept :
    (shelf [book, journal]).table.wf ∧ (shelf [book, journal]).table.recordsWf ∧ (shelf [book, journal]).accountWf ∧
    (exhausted [] seenBook).decision.wf := by
  refine ⟨by decide +kernel, by decide +kernel, ⟨by decide +kernel, by decide +kernel, ?_, ?_⟩, ⟨rfl, ?_, ?_⟩⟩
  · simp [shelf, State.blank, ClaimList.reset]
  · intro n r m h hb hl
    simp [shelf, book, journal] at h
    rcases h with ⟨rfl, rfl⟩ | ⟨rfl, rfl⟩ <;> simp at hb
    subst hb
    simp at hl
  · simp [exhausted, Config.lastAccession]
  · simp [exhausted]
theorem met_TheRestIsKept :
    (deciding .normal [book] seenBook).lanesWf ∧ (onLane (testing localText [])).lanesInRange ∧ (withParcel (onLane active)).consignWf ∧
    ({ deciding .normal [book] seenBook with report := { ReportUnit.reset with reservedItem := 1 } } : State).reportWf ∧
    (onLane { active with noSpace := true, news := [true, false] }).newsWf ∧ State.reset.sendWf ∧ State.reset.lineWf ∧
    ∃ t, step { State.reset with pending := [.replySent] } = .next t := by
  refine ⟨by decide +kernel, by decide +kernel, ⟨by decide, ?_⟩, by decide +kernel, by decide +kernel, by decide +kernel, ?_, ?_⟩
  · intro l c h
    by_cases hl : l = 7
    · subst hl
      cases (h : some parcel = some c)
      decide +kernel
    · have none_open : ∀ k : LaneId, k ≠ 7 → (withParcel (onLane active)).consignment k = none := by decide +kernel
      rw [none_open l hl] at h
      cases h
  · simp [State.lineWf, State.reset]
  · exact ⟨_, rfl⟩

/-! Worked examples: one step each. -/

/-- The state after a command. -/
def after (c : Instr) (s : State) : State :=
  match step { s with pending := [c] } with
  | .next t => t
  | .fault _ | .refused _ => s

/-- R192: power-on, and R21: the day is set and its reply is in transmission. -/
theorem test_power_on : after .powerOn (onLane active) = State.reset := by decide +kernel
theorem test_set_day : (after (.setDay 5#8 (.fields 20#16)) State.blank).table.day = some 20 ∧
    (after (.setDay 5#8 (.fields 20#16)) State.blank).host.line = .reply ⟨0x95#8, 5#8, .done (.day none 20)⟩ := by decide +kernel
/-- R24: an announced MONOGRAPH stands in slot 0. -/
theorem test_announce : (after (.announceTitle 1#8 (.fields announceBook)) (shelf [])).table.slots =
    [(0, ⟨bookKey, .expected, 999999, 1, [.preserve], 40, none, .monograph ⟨some 0, 0, .none⟩⟩)] := by decide +kernel
/-- R65: an enabled lane is SILENT and tells its station HOLD; R66: a HEARTBEAT brings it to ACTIVE and RELEASE. -/
theorem test_enable : ((after (.enableLane 1#8 (.fields 7#8)) prepared).lane 7).state = .silent ∧
    ((after (.enableLane 1#8 (.fields 7#8)) prepared).lane 7).sending = some .hold := by decide +kernel
theorem test_heartbeat : ((after (.heartbeat 7 .running .ready) (onLane { active with state := .silent, hold := true })).lane 7).state =
      .active ∧
    ((after (.heartbeat 7 .running .ready) (onLane { active with state := .silent, hold := true })).lane 7).sending =
      some .release := by decide +kernel
/-- R71: an item in sequence is admitted and a slot reserved for it. -/
theorem test_item_begin : ((after (.itemBegin 7 100#16) (onLane expecting)).lane 7).sending = some (.admission 100#16) ∧
    ((after (.itemBegin 7 100#16) (onLane expecting)).lane 7).expected = some 101#16 ∧
    (after (.itemBegin 7 100#16) (onLane expecting)).report.reservedItem = 1 := by decide +kernel
/-- R117: the last copy of a title takes the last accession number; R33: its record is COMPLETE. -/
theorem test_item_end : (after (.itemEnd 7 7#16 none) (deciding .normal [book] seenBook)).decision.last = some 99999999 ∧
    (after (.itemEnd 7 7#16 none) (deciding .normal [book] seenBook)).table.slots.map (fun e => e.2.status) = [.complete] := by
  decide +kernel
/-- R93 to R96: the item at the gate is diverted to its outlet and waits for its confirmation; the one ahead of it is MISSING. -/
theorem test_at_gate : ((after (.atGate 7 9#16) (onLane (queued .normal false))).lane 7).sending = some (.divert 9#16 5) ∧
    (after (.atGate 7 9#16) (onLane (queued .normal false))).report.filled.length = 2 := by decide +kernel
/-- R151, R165: a SWEEP lists an overdue MONOGRAPH; its entry asks for the missing copy. -/
theorem test_sweep : (after .sweepExamination (walk [book, journal] .sweep 0)).claims.entries =
    [⟨bookKey, .monograph 1, 2, .overdue, 40⟩] := by decide +kernel
/-- R146, R165: of an overdue SERIAL a full claim list takes no claim: it is counted owed. -/
theorem test_sweep_refused : (after .sweepExamination { walk [book, journal] .sweep 1 with claims := fullClaims }).engine =
    some ⟨.sweep, 0, 2, 1, 0, 1, 0⟩ := by decide +kernel
/-- R73, R78: a breach of sequence stops the lane, and the rise of STOPPED and of HELD are filed behind its records. -/
theorem test_violation : ((after (.itemBegin 7 101#16) (onLane { expecting with config := { LaneConfig.default with
      enables := { LaneEnables.off with stopped := ⟨true, true⟩, held := ⟨true, true⟩ } } })).report.filled.map fun x => match x with
      | .notice n => some (n.condition, n.edge)
      | .disposition _ | .summary _ | .completion _ => none) = [some (.stopped, .rising), some (.held, .rising)] := by decide +kernel
/-- R187: the end of a batch takes its record from the queue. -/
theorem test_batch_sent : (after .batchSent State.reset).report.filled = [] ∧ (after .batchSent State.reset).report.batchNumber = 1#8 ∧
    (after .batchSent State.reset).host.line = .idle := by decide +kernel

end Sys2Proof.Tests
end

section
/-! What every host command is judged by first (R9, R183): a body that is well formed, a lane number up to 7, a valid key. -/

namespace Sys2Proof.Machine

/-- R193: the reply's code is the command's plus 80H. -/
theorem replyCode_of_lt {code : Byte} (h : code.toNat < 0x80) : replyCode code = code + 0x80#8 := if_pos h

theorem withLane_none {b : Byte} (h : 8 ≤ b.toNat) (s : State) (act : LaneId → State × ReplyBody) :
    s.withLane b act = (s, .refused .invalid .none) := by
  have outside : laneOf b = none := dif_neg (by omega)
  simp only [State.withLane, outside, refuse]
theorem withKey_none {k : KeyText} (h : keyOf k = none) (s : State) (act : Key → State × ReplyBody) :
    s.withKey k act = (s, .refused .invalid .none) := by
  simp only [State.withKey, h, refuse]

/-- R183: the commands of malformedCommand are taken with their malformed bodies. -/
theorem exec_malformedCommand {code tag : Byte} {c : Instr} (h : malformedCommand code tag = some c) :
    code.toNat < 0x80 ∧ ∃ (α : Type) (run : α → State → State × ReplyBody),
      ∀ s, exec c s = s.command code tag .malformed run := by
  have byte : code = BitVec.ofNat 8 code.toNat := by simp
  unfold malformedCommand at h
  split at h
  case h_38 => cases h
  all_goals
    next number =>
      rw [number] at byte
      subst byte
      cases h
      simp only [exec]
      exact ⟨by decide, _, _, fun _ => rfl⟩

/-- A command that names a lane does what it does behind the judgement of its lane number. -/
theorem exec_of_laneByte {c : Instr} {code tag b : Byte} (hf : Instr.frame c = some (code, tag))
    (hb : Instr.laneByte c = some b) :
    code.toNat < 0x80 ∧ ∃ (α : Type) (a : α) (run : α → State → State × ReplyBody),
      (∀ s, exec c s = s.command code tag (.fields a) run) ∧
      ∃ act : State → LaneId → State × ReplyBody, ∀ s, run a s = s.withLane b (act s) := by
  unfold Instr.laneByte at hb
  split at hb
  case h_11 => cases hb
  all_goals
    cases hf
    cases hb
    simp only [exec]
    exact ⟨by decide, _, _, _, fun _ => rfl, _, fun _ => rfl⟩

/-- R9: a command that names a title does what it does behind the judgement of its key. -/
theorem exec_of_keyText {c : Instr} {code tag : Byte} {k : KeyText} (hf : Instr.frame c = some (code, tag))
    (hk : Instr.keyText c = some k) :
    code.toNat < 0x80 ∧ ∃ (α : Type) (a : α) (run : α → State → State × ReplyBody),
      (∀ s, exec c s = s.command code tag (.fields a) run) ∧
      ∃ act : State → Key → State × ReplyBody, ∀ s, run a s = s.withKey k (act s) := by
  unfold Instr.keyText at hk
  split at hk
  case h_6 => cases hk
  all_goals
    cases hf
    cases hk
    simp only [exec]
    exact ⟨by decide, _, _, _, fun _ => rfl, _, fun _ => rfl⟩

/-- Settles O4: each of the three judgements comes before anything else that the command's block does. -/
theorem invalidCommandsAreRefused : Obligations.InvalidCommandsAreRefused := by
  refine ⟨fun code tag c s h hs => ?body, fun c code tag b s hf hb out hs => ?lane,
    fun c code tag k s hf hk bad hs => ?key⟩
  case body =>
    obtain ⟨lt, _, _, runs⟩ := exec_malformedCommand h
    exact replyCode_of_lt lt ▸ refuses_malformed (runs s) hs
  case lane =>
    obtain ⟨lt, _, _, _, runs, _, judged⟩ := exec_of_laneByte hf hb
    exact replyCode_of_lt lt ▸ refuses_of_command (runs s) rfl hs fun t _ => (judged t).trans (withLane_none out t _)
  case key =>
    obtain ⟨lt, _, _, _, runs, _, judged⟩ := exec_of_keyText hf hk
    exact replyCode_of_lt lt ▸ refuses_of_command (runs s) rfl hs fun t _ => (judged t).trans (withKey_none bad t _)

end Sys2Proof.Machine
end

section
/-! Observations of the item being read (R8, R15, R72, R89). -/

namespace Sys2Proof.Machine

theorem setLane_setLane (s : State) (l : LaneId) (v w : Lane) : (s.setLane l v).setLane l w = s.setLane l w := by
  simp [State.setLane]
theorem onLane_setLane (s : State) (l : LaneId) (v : Lane) (f : Lane → Lane) :
    (s.setLane l v).onLane l f = s.setLane l (f v) := by
  rw [State.onLane, lane_setLane_same, setLane_setLane]
/-- R67: a record heard restarts the silence timer. -/
theorem restartSilence_eq (s : State) (l : LaneId) : s.restartSilence l = s.setLane l (s.lane l).heard := rfl
/-- R66, R67: an ACTIVE lane outside ECHO mode restarts its silence timer, acts on a valid record, and feeds its test. -/
theorem receive_of_acts {s : State} {l : LaneId} {r : StationRecord} (h : s.acts l r) (act : State → State) :
    s.receive l r act = (act (s.setLane l (s.lane l).heard)).feedTest l := by
  obtain ⟨active, notEcho, valid⟩ := h
  have mode : ((s.setLane l (s.lane l).heard).lane l).mode ≠ .echo := by simpa [Lane.heard] using notEcho
  simp only [State.receive, active, valid, Bool.not_true, Bool.false_eq_true, if_false, restartSilence_eq,
    State.takeRecord, mode]
/-- R72: a number names the READING item when it is that item's own. -/
theorem namesReading_of {v : Lane} {i : Item} (h : v.readingItem = some i) : v.namesReading i.sq = true := by
  simp [Lane.namesReading, h]
/-- R72, R89: an OBSERVATION that names the READING item joins it. -/
theorem observe_of_namesReading {s : State} {l : LaneId} {v : Lane} {sq : Seq} (o : Observation)
    (h : v.namesReading sq = true) :
    (s.setLane l v).observe l sq o = s.setLane l (v.onReading fun i => i.join o) := by
  simp only [State.observe, lane_setLane_same, h, if_true, State.joinReading, onLane_setLane]
/-- R15: the entry of an identifier list tells whether the identifier was judged, and whether it failed. -/
theorem identEntry_ident (x : Ident) (j : Judgement) :
    identEntry (.ident x j) = some ⟨x.scheme, x.text, decide (j ≠ .unchecked), decide (j = .invalid)⟩ := by
  cases j <;> rfl

/-- Settles O42: an OBSERVATION by the joining of its lane's READING item, the identifier list entry by entry. -/
theorem observationsJoinTheItem : Obligations.ObservationsJoinTheItem := by
  refine ⟨fun s l sq o i acts reads hsq => ?joins, fun i outcome outlet reason confirm fault => ?list⟩
  case joins =>
    subst hsq
    have names : (s.lane l).heard.namesReading i.sq = true := namesReading_of (v := (s.lane l).heard) reads
    refine happens_of_done (congrArg State.done ?_)
    rw [receive_of_acts acts, observe_of_namesReading o names]
    cases o <;> rfl
  case list =>
    refine congrArg (fun f => i.observations.filterMap f) (funext fun o => ?_)
    cases o with
    | ident x j => exact identEntry_ident x j
    | weight g => rfl
    | size h w d => rfl
    | medium m => rfl

end Sys2Proof.Machine
end

section
/-! Identifiers character by character (R2 to R9): what the digits of a text are, what the weighted sums are, and the key or the slip that
a valid text yields. -/

namespace Sys2Proof.Machine

/-! Digits. -/

/-- R2: the digit d is the byte 30H + d. -/
theorem digitOf_eq_some {b : Byte} {d : Nat} : digitOf b = some d ↔ d ≤ 9 ∧ b = BitVec.ofNat 8 (0x30 + d) := by
  unfold digitOf
  constructor
  · intro h
    split at h
    · injection h with h
      exact ⟨by omega, BitVec.eq_of_toNat_eq (by simp; omega)⟩
    · cases h
  · rintro ⟨hd, rfl⟩
    have value : (BitVec.ofNat 8 (0x30 + d)).toNat = 0x30 + d := by simp; omega
    rw [value, if_pos (by omega)]
    simp
/-- R2, R4: at the check position of a SERIAL the byte 58H is the value 10. -/
theorem digitOrX_eq_some {b : Byte} {c : Nat} :
    digitOrX b = some c ↔ c ≤ 10 ∧ b = if c = 10 then 0x58#8 else BitVec.ofNat 8 (0x30 + c) := by
  have x_no_digit : digitOf 0x58#8 = none := by decide
  unfold digitOrX
  by_cases hc : c = 10
  · subst hc
    by_cases hb : b = 0x58#8
    · simp [hb]
    · simp [hb, digitOf_eq_some]
  · by_cases hb : b = 0x58#8
    · subst hb
      have differ : ¬ (c ≤ 9 ∧ 0x58#8 = BitVec.ofNat 8 (0x30 + c)) := by simp [← digitOf_eq_some, x_no_digit]
      have le : c ≤ 10 → c ≤ 9 := by omega
      simp only [if_true, Option.some.injEq, hc, if_false]
      exact ⟨fun h => absurd h.symm hc, fun ⟨hl, h⟩ => absurd ⟨le hl, h⟩ differ⟩
    · rw [if_neg hb, if_neg hc, digitOf_eq_some]
      exact and_congr_left fun _ => by omega
/-- R2: the digits of a text are those it spells. -/
theorem digitsOf_eq_some {text : List Byte} {ds : List Nat} :
    digitsOf text = some ds ↔ (∀ d ∈ ds, d ≤ 9) ∧ text = ds.map fun d => BitVec.ofNat 8 (0x30 + d) := by
  induction text generalizing ds with
  | nil => cases ds <;> simp [digitsOf]
  | cons b t ih =>
    have split_cons : digitsOf (b :: t) = some ds ↔ ∃ d r, digitOf b = some d ∧ digitsOf t = some r ∧ ds = d :: r := by
      rw [digitsOf]
      split
      · next d r hd hr => simp [hd, hr, eq_comm]
      · next h =>
        simp only [reduceCtorEq, false_iff]
        rintro ⟨d, r, hd, hr, -⟩
        exact h d r hd hr
    rw [split_cons]
    simp only [digitOf_eq_some, ih]
    cases ds with
    | nil => simp
    | cons d r =>
      simp only [List.cons.injEq, List.map_cons, List.mem_cons, forall_eq_or_imp]
      constructor
      · rintro ⟨_, _, ⟨hd, hb⟩, ⟨hr, ht⟩, rfl, rfl⟩
        exact ⟨⟨hd, hr⟩, hb, ht⟩
      · rintro ⟨⟨hd, hr⟩, hb, ht⟩
        exact ⟨d, r, ⟨hd, hb⟩, ⟨hr, ht⟩, rfl, rfl⟩

/-! Weighted sums. -/

/-- R3, R5, R6: the weight is 1 at the even positions, counted from 0, and 3 at the odd ones. -/
theorem altSum_eq (ds : List Nat) :
    altSum ds = ((List.range ds.length).map fun i => (if i % 2 = 0 then 1 else 3) * ds.getD i 0).sum := by
  induction ds using altSum.induct with
  | case1 => rfl
  | case2 a => simp [altSum]
  | case3 a b t ih =>
    rw [altSum, ih, List.length_cons, List.length_cons, List.range_succ_eq_map, List.range_succ_eq_map]
    simp [Function.comp_def, Nat.add_assoc]
/-- R4: the weight at position i of n digits is n + 1 − i. -/
theorem fallingSum_eq (ds : List Nat) :
    fallingSum ds = ((List.range ds.length).map fun i => (ds.length + 1 - i) * ds.getD i 0).sum := by
  induction ds with
  | nil => rfl
  | cons d t ih =>
    rw [fallingSum, ih, List.length_cons, List.range_succ_eq_map]
    simp [Function.comp_def, Nat.mul_comm, Nat.add_sub_add_right]

/-! Values. -/

/-- R3, R5, R6: the texts of n + 1 digits of which the last is the check digit. -/
theorem altValue_eq_some {n : Nat} {text : List Byte} {ds : List Nat} :
    altValue (n + 1) text = some ds ↔
      ds.length = n + 1 ∧ (∀ d ∈ ds, d ≤ 9) ∧ text = ds.map (fun d => BitVec.ofNat 8 (0x30 + d)) ∧
      ds.getD n 0 =
        (10 - ((List.range n).map fun i => (if i % 2 = 0 then 1 else 3) * ds.getD i 0).sum % 10) % 10 := by
  have check (h : ds.length = n + 1) : ds.getLast? = some (altCheck ds.dropLast) ↔ ds.getD n 0 =
      (10 - ((List.range n).map fun i => (if i % 2 = 0 then 1 else 3) * ds.getD i 0).sum % 10) % 10 := by
    have digits : (List.range n).map (fun i => (if i % 2 = 0 then 1 else 3) * ds.dropLast.getD i 0) =
        (List.range n).map fun i => (if i % 2 = 0 then 1 else 3) * ds.getD i 0 := by
      refine List.map_congr_left fun i hi => ?_
      have front : ds.dropLast.getD i 0 = ds.getD i 0 := by
        rw [List.getD_eq_getElem?_getD, List.getD_eq_getElem?_getD, List.getElem?_dropLast, h, Nat.add_sub_cancel,
          if_pos (List.mem_range.mp hi)]
      rw [front]
    rw [altCheck, altSum_eq, List.length_dropLast, h, Nat.add_sub_cancel, digits, List.getLast?_eq_getElem?, h]
    simp [List.getD_eq_getElem?_getD, h]
  have read : altValue (n + 1) text = some ds ↔
      digitsOf text = some ds ∧ ds.length = n + 1 ∧ ds.getLast? = some (altCheck ds.dropLast) := by
    unfold altValue
    split
    · next r hr =>
      rw [hr]
      constructor
      · intro h
        split at h
        · next good => cases h; exact ⟨rfl, good⟩
        · cases h
      · rintro ⟨⟨⟩, good⟩
        exact if_pos good
    · next hr => simp [hr]
  rw [read, digitsOf_eq_some]
  constructor
  · rintro ⟨⟨small, spelt⟩, len, last⟩
    exact ⟨len, small, spelt, (check len).mp last⟩
  · rintro ⟨len, small, spelt, last⟩
    exact ⟨⟨small, spelt⟩, len, (check len).mpr last⟩

/-- R4: the texts of seven digits and their check character. -/
theorem serialValue_eq_some {text : List Byte} {v : List Nat} :
    serialValue text = some v ↔
      ∃ (ds : List Nat) (c : Nat), ds.length = 7 ∧ (∀ d ∈ ds, d ≤ 9) ∧
        text = ds.map (fun d => BitVec.ofNat 8 (0x30 + d)) ++ [if c = 10 then 0x58#8 else BitVec.ofNat 8 (0x30 + c)] ∧
        v = ds ++ [c] ∧ c = (11 - ((List.range 7).map fun i => (8 - i) * ds.getD i 0).sum % 11) % 11 := by
  have check (ds : List Nat) (h : ds.length = 7) :
      elevenCheck ds = (11 - ((List.range 7).map fun i => (8 - i) * ds.getD i 0).sum % 11) % 11 := by
    rw [elevenCheck, fallingSum_eq, h]
  have read : serialValue text = some v ↔
      ∃ ds c, digitsOf (text.take 7) = some ds ∧ (text.drop 7).map digitOrX = [some c] ∧
        ds.length = 7 ∧ c = elevenCheck ds ∧ v = ds ++ [c] := by
    unfold serialValue
    split
    · next ds c hd hc =>
      rw [hd, hc]
      constructor
      · intro h
        split at h
        · next good => cases h; exact ⟨ds, c, rfl, rfl, good.1, good.2, rfl⟩
        · cases h
      · rintro ⟨_, _, ⟨⟩, ⟨⟩, len, good, rfl⟩
        exact if_pos ⟨len, good⟩
    · next h =>
      simp only [reduceCtorEq, false_iff]
      rintro ⟨ds, c, hd, hc, -⟩
      exact h ds c hd hc
  rw [read]
  refine exists_congr fun ds => exists_congr fun c => ?_
  constructor
  · rintro ⟨hd, hc, len, hv, rfl⟩
    obtain ⟨small, front⟩ := digitsOf_eq_some.mp hd
    obtain ⟨b, back, hb⟩ := List.map_eq_singleton_iff.mp hc
    obtain ⟨-, rfl⟩ := digitOrX_eq_some.mp hb
    refine ⟨len, small, ?_, rfl, hv.trans (check ds len)⟩
    rw [← List.take_append_drop 7 text, front, back]
  · rintro ⟨len, small, rfl, rfl, hv⟩
    have front : (ds.map fun d => BitVec.ofNat 8 (0x30 + d)).length = 7 := by simpa using len
    have last : digitOrX (if c = 10 then 0x58#8 else BitVec.ofNat 8 (0x30 + c)) = some c :=
      digitOrX_eq_some.mpr ⟨by omega, rfl⟩
    refine ⟨?_, ?_, len, hv.trans (check ds len).symm, rfl⟩
    · rw [List.take_left' front]
      exact digitsOf_eq_some.mpr ⟨small, rfl⟩
    · rw [List.drop_left' front, List.map_singleton, last]

/-- R6: the content of a slip, read off its eleven digits. -/
theorem slipValue_eq_some {text : List Byte} {c : SlipContent} :
    slipValue text = some c ↔ ∃ ds, altValue 11 text = some ds ∧
      (ds.getD 0 0 = 1 ∧ c.trailer = false ∨ ds.getD 0 0 = 2 ∧ c.trailer = true) ∧
      c.publisher = (((((ds.getD 1 0 * 10 + ds.getD 2 0) * 10 + ds.getD 3 0) * 10 + ds.getD 4 0) * 10 +
        ds.getD 5 0) * 10 + ds.getD 6 0) ∧
      c.declared = (ds.getD 7 0 * 10 + ds.getD 8 0) * 10 + ds.getD 9 0 := by
  unfold slipValue
  cases value : altValue 11 text with
  | none => simp
  | some ds =>
    have len : ds.length = 11 := (altValue_eq_some.mp value).1
    obtain ⟨trailer, publisher, declared⟩ := c
    match ds, len with
    | [kind, a, b, c, d, e, f, x, y, z, check], _ =>
      have kinds : (kind = 1 ∨ kind = 2) ∧ decide (kind = 2) = trailer ↔
          kind = 1 ∧ trailer = false ∨ kind = 2 ∧ trailer = true := by
        cases trailer <;> simp <;> omega
      have six : number [a, b, c, d, e, f] = ((((a * 10 + b) * 10 + c) * 10 + d) * 10 + e) * 10 + f := by
        simp [number, Nat.mul_comm]
      have three : number [x, y, z] = (x * 10 + y) * 10 + z := by simp [number, Nat.mul_comm]
      simp [six, three, ← kinds, and_assoc, eq_comm (a := publisher), eq_comm (a := declared)]

/-! Identifiers. -/

theorem code_of_ofCode {α : Type} {all : List α} {code : α → Byte} {b : Byte} {a : α} (h : ofCode all code b = some a) :
    code a = b := by
  simpa using List.find?_some h

theorem identValue_book (text : List Byte) :
    identValue 0x01#8 text = (altValue 13 text).map fun v => .key ⟨.book, v⟩ := rfl
theorem identValue_serial (text : List Byte) :
    identValue 0x02#8 text = (serialValue text).map fun v => .key ⟨.serial, v⟩ := rfl
theorem identValue_localNum (text : List Byte) :
    identValue 0x03#8 text = (altValue 12 text).map fun v => .key ⟨.localNum, v⟩ := rfl
theorem identValue_slip (text : List Byte) : identValue 0x04#8 text = (slipValue text).map .slip := rfl

/-- R9: only the scheme codes 1 to 3 yield keys. -/
theorem scheme_of_identValue_key {scheme : Byte} {text : List Byte} {k : Key}
    (h : identValue scheme text = some (.key k)) : 1 ≤ scheme.toNat ∧ scheme.toNat ≤ 3 := by
  unfold identValue at h
  split at h
  · next hc => rw [← code_of_ofCode hc]; decide
  · next hc => rw [← code_of_ofCode hc]; decide
  · next hc => rw [← code_of_ofCode hc]; decide
  · simp at h
  · cases h
/-- R6: only the scheme code 4 yields slips. -/
theorem scheme_of_identValue_slip {scheme : Byte} {text : List Byte} {c : SlipContent}
    (h : identValue scheme text = some (.slip c)) : scheme = 0x04#8 := by
  unfold identValue at h
  split at h
  · simp at h
  · simp at h
  · simp at h
  · next hc => exact (code_of_ofCode hc).symm
  · cases h

theorem keyOf_eq_some {k : KeyText} {v : Key} : keyOf k = some v ↔ identValue k.scheme k.text = some (.key v) := by
  unfold keyOf
  split <;> simp_all
theorem slip?_eq_some {i : Ident} {c : SlipContent} :
    Ident.slip? i = some c ↔ identValue i.scheme i.text = some (.slip c) := by
  unfold Ident.slip?
  split <;> simp_all
/-- R9: an identifier yields the key that a host command with its scheme and text gives. -/
theorem key?_eq_keyOf (i : Ident) : Ident.key? i = keyOf ⟨i.scheme, i.text⟩ := by
  unfold Ident.key? keyOf
  split <;> simp_all

/-- R8: a judgement is VALID or INVALID. -/
theorem judge_ne_unchecked (i : Ident) : judge i ≠ .unchecked := by
  unfold judge; split <;> simp
/-- R8: an identifier is INVALID exactly when it yields neither a key nor a slip. -/
theorem judge_eq_invalid_iff {i : Ident} :
    judge i = .invalid ↔ Ident.key? i = none ∧ Ident.slip? i = none := by
  unfold judge Ident.key? Ident.slip?
  split <;> split <;> simp_all
theorem judge_eq_valid_iff {i : Ident} :
    judge i = .valid ↔ (Ident.key? i).isSome = true ∨ (Ident.slip? i).isSome = true := by
  have two : judge i = .valid ↔ judge i ≠ .invalid := by
    cases h : judge i <;> simp [judge_ne_unchecked i] at h ⊢
  simp only [two, ne_eq, judge_eq_invalid_iff, Option.isSome_iff_ne_none]
  exact not_and_or

/-- R3, R5: the key of a text whose last digit is its check digit. -/
theorem altValue_key_eq_some {n : Nat} {text : List Byte} {scheme : KeyScheme} {k : Key} :
    ((altValue (n + 1) text).map fun v => IdentValue.key ⟨scheme, v⟩) = some (.key k) ↔
      ∃ ds : List Nat, ds.length = n + 1 ∧ (∀ d ∈ ds, d ≤ 9) ∧ text = ds.map (fun d => BitVec.ofNat 8 (0x30 + d)) ∧
        k = ⟨scheme, ds⟩ ∧ ds.getD n 0 =
          (10 - ((List.range n).map fun i => (if i % 2 = 0 then 1 else 3) * ds.getD i 0).sum % 10) % 10 := by
  simp only [Option.map_eq_some_iff, altValue_eq_some, IdentValue.key.injEq, and_assoc, eq_comm (b := k)]
  exact exists_congr fun ds => and_congr_right fun _ => and_congr_right fun _ => and_congr_right fun _ => and_comm

/-- Settles O43: each scheme's value, read character by character. -/
theorem identifiersYieldTheirKeys : Obligations.IdentifiersYieldTheirKeys := by
  refine ⟨fun text k => ?book, fun text k => ?serial, fun text k => ?localNum, fun text e c => ?slip,
    fun scheme text h => ?noKey, fun scheme text e h => ?noSlip,
    fun i => ⟨key?_eq_keyOf i, judge_eq_valid_iff, judge_ne_unchecked i⟩⟩
  case book => rw [keyOf_eq_some, identValue_book, altValue_key_eq_some]
  case serial =>
    rw [keyOf_eq_some, identValue_serial]
    simp only [Option.map_eq_some_iff, IdentValue.key.injEq, serialValue_eq_some]
    constructor
    · rintro ⟨_, ⟨ds, c, len, small, spelt, rfl, check⟩, rfl⟩
      exact ⟨ds, c, len, small, spelt, rfl, check⟩
    · rintro ⟨ds, c, len, small, spelt, rfl, check⟩
      exact ⟨_, ⟨ds, c, len, small, spelt, rfl, check⟩, rfl⟩
  case localNum => rw [keyOf_eq_some, identValue_localNum, altValue_key_eq_some]
  case slip =>
    rw [slip?_eq_some, identValue_slip]
    simp only [Option.map_eq_some_iff, IdentValue.slip.injEq, exists_eq_right, slipValue_eq_some, altValue_eq_some]
    refine exists_congr fun ds => ?_
    constructor
    · rintro ⟨⟨len, small, spelt, check⟩, kind, publisher, declared⟩
      exact ⟨len, small, spelt, kind, publisher, declared, check⟩
    · rintro ⟨len, small, spelt, kind, publisher, declared, check⟩
      exact ⟨⟨len, small, spelt, check⟩, kind, publisher, declared⟩
  case noKey =>
    rw [Option.eq_none_iff_forall_ne_some]
    intro k hk
    have keyScheme : 1 ≤ scheme.toNat ∧ scheme.toNat ≤ 3 := scheme_of_identValue_key (keyOf_eq_some.mp hk)
    omega
  case noSlip =>
    rw [Option.eq_none_iff_forall_ne_some]
    exact fun c hc => h (scheme_of_identValue_slip (slip?_eq_some.mp hc))

end Sys2Proof.Machine
end

section
/-! The choice of an item's identifier among its valid ones (R10 to R12). -/

namespace Sys2Proof.Machine

/-- R10: the keys of one scheme that an item's identifiers yield, in their order. -/
def keysOf (is : List Ident) (c : KeyScheme) : List Key := (is.filterMap Ident.key?).filter fun k => k.scheme == c
/-- R10: the order of the schemes: SERIAL before BOOK before LOCAL. -/
def KeyScheme.rank : KeyScheme → Nat
  | .serial => 2 | .book => 1 | .localNum => 0

theorem rank_injective {c d : KeyScheme} (h : c.rank = d.rank) : c = d := by
  revert h; cases c <;> cases d <;> decide
theorem mem_keysOf {is : List Ident} {c : KeyScheme} {k : Key} :
    k ∈ keysOf is c ↔ (∃ i ∈ is, Ident.key? i = some k) ∧ k.scheme = c := by
  simp [keysOf]
theorem filterMap_slip?_eq_nil {is : List Ident} : is.filterMap Ident.slip? = [] ↔ ∀ i ∈ is, Ident.slip? i = none :=
  List.filterMap_eq_nil_iff
/-- No scheme has a key exactly when no identifier yields one. -/
theorem keysOf_eq_nil_iff {is : List Ident} : (∀ c, keysOf is c = []) ↔ ∀ i ∈ is, Ident.key? i = none := by
  simp only [List.eq_nil_iff_forall_not_mem, mem_keysOf, Option.eq_none_iff_forall_ne_some]
  exact ⟨fun h i hi k hk => h k.scheme k ⟨⟨i, hi, hk⟩, rfl⟩, fun h c k ⟨⟨i, hi, hk⟩, _⟩ => h i hi k hk⟩

/-- R12: the enumeration is the first that an identifier with the chosen key carries. -/
theorem enumerationFor_eq (k : Key) (is : List Ident) :
    enumerationFor k is = (is.filter fun i => decide (Ident.key? i = some k)).findSome? (·.enumeration) := by
  unfold enumerationFor
  induction is with
  | nil => rfl
  | cons i t ih =>
    by_cases h : Ident.key? i = some k
    · simp [List.findSome?_cons, h, ih]
    · simp [h, ih]

/-- R10: keys of one scheme come to a key when they are all that key. -/
theorem chooseKey_eq_key {is : List Ident} {ks : List Key} {k : Key} {e : Option Enumeration} :
    chooseKey is ks = .key k e ↔ k ∈ ks ∧ (∀ x ∈ ks, x = k) ∧ e = enumerationFor k is := by
  cases ks with
  | nil => simp [chooseKey]
  | cons a t =>
    simp only [chooseKey, List.all_eq_true, beq_iff_eq]
    split
    · next all =>
      simp only [Choice.key.injEq, List.mem_cons, forall_eq_or_imp]
      constructor
      · rintro ⟨rfl, rfl⟩
        exact ⟨.inl rfl, ⟨rfl, all⟩, rfl⟩
      · rintro ⟨_, ⟨rfl, _⟩, rfl⟩
        exact ⟨rfl, rfl⟩
    · next differ =>
      simp only [reduceCtorEq, false_iff, List.mem_cons, forall_eq_or_imp]
      rintro ⟨_, ⟨rfl, all⟩, _⟩
      exact differ all
/-- R10: keys that stand come to one of them or to CONFLICT. -/
theorem chooseKey_outcome (is : List Ident) {ks : List Key} (h : ks ≠ []) :
    (∃ k e, chooseKey is ks = .key k e) ∨ chooseKey is ks = .failed .conflict := by
  cases ks with
  | nil => exact absurd rfl h
  | cons a t =>
    simp only [chooseKey]
    split
    · exact .inl ⟨_, _, rfl⟩
    · exact .inr rfl

/-- R10, R11: what the choice can come to: that of the slips, when there is one; else that of the keys of the highest scheme that has
any; else the failure of an item with no valid identifier. -/
theorem choose_cases (is : List Ident) :
    (∃ c t, is.filterMap Ident.slip? = c :: t ∧
      choose is = if t.all fun x => x == c then .slip c else .failed .conflict) ∨
    (is.filterMap Ident.slip? = [] ∧ ∃ c, keysOf is c ≠ [] ∧ (∀ d : KeyScheme, c.rank < d.rank → keysOf is d = []) ∧
      choose is = chooseKey is (keysOf is c)) ∨
    (is.filterMap Ident.slip? = [] ∧ (∀ c, keysOf is c = []) ∧
      choose is = .failed (if is.isEmpty then .noIdentifier else .checkFail)) := by
  have above {c : KeyScheme} (hs : c ≠ .serial → keysOf is .serial = [])
      (hb : c = .localNum → keysOf is .book = []) (d : KeyScheme) (h : c.rank < d.rank) : keysOf is d = [] := by
    cases c <;> cases d <;> simp_all [KeyScheme.rank]
  cases slips : is.filterMap Ident.slip? with
  | cons c t => exact .inl ⟨c, t, rfl, by simp only [choose, slips]⟩
  | nil =>
    refine .inr ?_
    have keys : choose is =
        if !(keysOf is .serial).isEmpty then chooseKey is (keysOf is .serial)
        else if !(keysOf is .book).isEmpty then chooseKey is (keysOf is .book)
        else if !(keysOf is .localNum).isEmpty then chooseKey is (keysOf is .localNum)
        else .failed (if is.isEmpty then .noIdentifier else .checkFail) := by
      unfold choose
      rw [slips]
      rfl
    by_cases hs : keysOf is .serial = []
    · by_cases hb : keysOf is .book = []
      · by_cases hl : keysOf is .localNum = []
        · exact .inr ⟨rfl, fun c => by cases c <;> assumption, by simp [keys, hs, hb, hl]⟩
        · exact .inl ⟨rfl, .localNum, hl, above (fun _ => hs) (fun _ => hb), by simp [keys, hs, hb, hl]⟩
      · exact .inl ⟨rfl, .book, hb, above (fun _ => hs) (by simp), by simp [keys, hs, hb]⟩
    · exact .inl ⟨rfl, .serial, hs, above (by simp) (by simp), by simp [keys, hs]⟩

/-- R10, R11: a slip prevails when all the item's slips have one value. -/
theorem choose_eq_slip_iff {is : List Ident} {c : SlipContent} :
    choose is = .slip c ↔
      (∃ i ∈ is, Ident.slip? i = some c) ∧ ∀ i ∈ is, ∀ x, Ident.slip? i = some x → x = c := by
  have toList : ((∃ i ∈ is, Ident.slip? i = some c) ∧ ∀ i ∈ is, ∀ x, Ident.slip? i = some x → x = c) ↔
      c ∈ is.filterMap Ident.slip? ∧ ∀ x ∈ is.filterMap Ident.slip?, x = c := by
    simp only [List.mem_filterMap]
    exact and_congr_right fun _ => ⟨fun h x ⟨i, hi, hx⟩ => h i hi x hx, fun h i hi x hx => h x ⟨i, hi, hx⟩⟩
  rw [toList]
  obtain ⟨a, t, slips, out⟩ | ⟨slips, s, has, -, out⟩ | ⟨slips, -, out⟩ := choose_cases is
  · rw [out, slips]
    split
    · next all =>
      rw [List.all_eq_true] at all
      simp only [Choice.slip.injEq, List.mem_cons, forall_eq_or_imp]
      constructor
      · rintro rfl
        exact ⟨.inl rfl, rfl, fun x hx => by simpa using all x hx⟩
      · rintro ⟨-, rfl, -⟩
        rfl
    · next differ =>
      simp only [reduceCtorEq, false_iff, List.mem_cons, forall_eq_or_imp]
      rintro ⟨-, rfl, all⟩
      exact differ (by simpa using all)
  · obtain ⟨k, e, h⟩ | h := chooseKey_outcome is has <;> simp [out, h, slips]
  · simp [out, slips]

/-- R10: the last two demands on a chosen key say that no identifier yields a key of a higher scheme. -/
theorem highest_scheme_iff {is : List Ident} {k : Key} :
    ((∀ i ∈ is, ∀ x, Ident.key? i = some x → x.scheme = .serial → k.scheme = .serial) ∧
      (∀ i ∈ is, ∀ x, Ident.key? i = some x → x.scheme = .book → k.scheme ≠ .localNum)) ↔
    ∀ i ∈ is, ∀ x, Ident.key? i = some x → x.scheme.rank ≤ k.scheme.rank := by
  have one (c d : KeyScheme) : ((c = .serial → d = .serial) ∧ (c = .book → d ≠ .localNum)) ↔ c.rank ≤ d.rank := by
    cases c <;> cases d <;> decide
  simp only [← one]
  exact ⟨fun ⟨hs, hb⟩ i hi x hx => ⟨hs i hi x hx, hb i hi x hx⟩,
    fun h => ⟨fun i hi x hx => (h i hi x hx).1, fun i hi x hx => (h i hi x hx).2⟩⟩

/-- R10 to R12: a key is chosen when there is no slip, it is the one key of its scheme, and no higher scheme has a key. -/
theorem choose_eq_key_iff {is : List Ident} {k : Key} {e : Option Enumeration} :
    choose is = .key k e ↔
      (∀ i ∈ is, Ident.slip? i = none) ∧ (∃ i ∈ is, Ident.key? i = some k) ∧
      (∀ i ∈ is, ∀ x, Ident.key? i = some x → x.scheme = k.scheme → x = k) ∧
      (∀ i ∈ is, ∀ x, Ident.key? i = some x → x.scheme.rank ≤ k.scheme.rank) ∧ e = enumerationFor k is := by
  rw [← filterMap_slip?_eq_nil]
  obtain ⟨a, t, slips, out⟩ | ⟨slips, c, has, above, out⟩ | ⟨slips, noKey, out⟩ := choose_cases is
  · rw [out, slips]
    split <;> simp
  · rw [out, chooseKey_eq_key]
    constructor
    · rintro ⟨hk, all, rfl⟩
      obtain ⟨yields, rfl⟩ := mem_keysOf.mp hk
      refine ⟨slips, yields, fun i hi x hx hc => all x (mem_keysOf.mpr ⟨⟨i, hi, hx⟩, hc⟩), fun i hi x hx => ?_, rfl⟩
      by_contra higher
      have hx' : x ∈ keysOf is x.scheme := mem_keysOf.mpr ⟨⟨i, hi, hx⟩, rfl⟩
      simp [above x.scheme (by omega)] at hx'
    · rintro ⟨-, yields, all, high, rfl⟩
      have hk : k ∈ keysOf is k.scheme := mem_keysOf.mpr ⟨yields, rfl⟩
      obtain ⟨x, hx⟩ := List.exists_mem_of_ne_nil _ has
      obtain ⟨⟨i, hi, hxi⟩, rfl⟩ := mem_keysOf.mp hx
      have notAbove : ¬ x.scheme.rank < k.scheme.rank := fun h => by simp [above _ h] at hk
      have same : x.scheme = k.scheme := rank_injective (by have := high i hi x hxi; omega)
      refine ⟨same ▸ hk, fun y hy => ?_, rfl⟩
      obtain ⟨⟨j, hj, hyj⟩, hc⟩ := mem_keysOf.mp hy
      exact all j hj y hyj (hc.trans same)
  · simp only [out, reduceCtorEq, false_iff]
    rintro ⟨-, ⟨i, hi, hk⟩, -⟩
    simp [keysOf_eq_nil_iff.mp noKey i hi] at hk

/-- R11: the choice fails as CONFLICT, or because the item has no valid identifier: NO IDENTIFIER when it has none at all, else
CHECK FAIL. -/
theorem choose_eq_failed {is : List Ident} {r : Reason} (h : choose is = .failed r) :
    r = .conflict ∨ (is = [] ∧ r = .noIdentifier) ∨
      (is ≠ [] ∧ (∀ i ∈ is, judge i = .invalid) ∧ r = .checkFail) := by
  obtain ⟨a, t, -, out⟩ | ⟨-, c, has, -, out⟩ | ⟨slips, noKey, out⟩ := choose_cases is
  · rw [out] at h
    split at h <;> simp_all
  · obtain ⟨k, e, hk⟩ | hf := chooseKey_outcome is has <;> simp_all
  · rw [out, Choice.failed.injEq] at h
    cases is with
    | nil => exact .inr (.inl ⟨rfl, h.symm⟩)
    | cons i t =>
      exact .inr (.inr ⟨by simp, fun j hj =>
        judge_eq_invalid_iff.mpr ⟨keysOf_eq_nil_iff.mp noKey j hj, filterMap_slip?_eq_nil.mp slips j hj⟩, h.symm⟩)
/-- R11: identifiers of which none is valid fail the choice. -/
theorem choose_of_all_invalid {is : List Ident} (h : ∀ i ∈ is, judge i = .invalid) :
    choose is = .failed (if is.isEmpty then .noIdentifier else .checkFail) := by
  have noSlip := filterMap_slip?_eq_nil.mpr fun i hi => (judge_eq_invalid_iff.mp (h i hi)).2
  have noKey := keysOf_eq_nil_iff.mpr fun i hi => (judge_eq_invalid_iff.mp (h i hi)).1
  obtain ⟨a, t, slips, -⟩ | ⟨-, c, has, -⟩ | ⟨-, -, out⟩ := choose_cases is
  · simp [noSlip] at slips
  · exact absurd (noKey c) has
  · exact out

/-- Settles O44: each outcome of the choice, read off its cases. -/
theorem keysAreChosenByScheme : Obligations.KeysAreChosenByScheme := by
  refine ⟨fun is c => choose_eq_slip_iff, fun is k e => ?_, fun is => ?_, fun is => ?_, fun is r h => ?_⟩
  · rw [choose_eq_key_iff, ← highest_scheme_iff, enumerationFor_eq, and_assoc]
  · constructor
    · intro h
      simpa using choose_eq_failed h
    · rintro rfl
      rfl
  · constructor
    · intro h
      simpa using choose_eq_failed h
    · rintro ⟨given, invalid⟩
      simp [choose_of_all_invalid invalid, given]
  · obtain rfl | ⟨-, rfl⟩ | ⟨-, -, rfl⟩ := choose_eq_failed h <;> simp

end Sys2Proof.Machine
end

section
/-! The run window (R42, R43, R51): what each cell holds after each change of the window, and that its form is kept. -/

namespace Sys2Proof.Machine

/-! Cells. -/

theorem cell_below {p : SerialPart} {x : Nat} (h : x < p.w) : p.cell x = ⟨0, false⟩ := if_pos h
theorem cell_from {p : SerialPart} {x : Nat} (h : p.w ≤ x) : p.cell x = p.cells.getD (x - p.w) ⟨0, false⟩ :=
  if_neg (Nat.not_lt.2 h)
/-- R42: an ordinal above the window has no cell. -/
theorem cell_above {p : SerialPart} {x : Nat} (h : p.w + p.cells.length ≤ x) : p.cell x = ⟨0, false⟩ := by
  rw [cell_from (by omega), List.getD_eq_default _ _ (by omega)]
/-- A cell of the list is the cell of its ordinal. -/
theorem cell_getElem {p : SerialPart} {i : Nat} (h : i < p.cells.length) : p.cell (p.w + i) = p.cells[i] := by
  rw [cell_from (by omega), Nat.add_sub_cancel_left, List.getD_eq_getElem _ _ h]
/-- A fact of the cell that no ordinal outside the window has is a fact of every ordinal when it is one of every cell of the list. -/
theorem forall_cell {p : SerialPart} {P : Nat → Cell → Prop} (outside : ∀ x, P x ⟨0, false⟩) :
    (∀ x, P x (p.cell x)) ↔ ∀ i (h : i < p.cells.length), P (p.w + i) p.cells[i] := by
  constructor
  · intro all i h
    exact cell_getElem h ▸ all (p.w + i)
  · intro all x
    by_cases below : x < p.w
    · exact cell_below below ▸ outside x
    · by_cases above : p.w + p.cells.length ≤ x
      · exact cell_above above ▸ outside x
      · have at_x := all (x - p.w) (by omega)
        rw [← cell_getElem, Nat.add_sub_cancel' (by omega)] at at_x
        exact at_x

theorem cell_setCell (p : SerialPart) (x : Nat) (c : Cell) (y : Nat) :
    (p.setCell x c).cell y = if y = x ∧ p.w ≤ x ∧ x < p.w + p.cells.length then c else p.cell y := by
  unfold SerialPart.setCell
  split
  · rw [if_neg (by omega)]
  · by_cases below : y < p.w
    · rw [cell_below below, cell_below (by exact below), if_neg (by omega)]
    · rw [cell_from (Nat.not_lt.1 below), cell_from (by exact Nat.not_lt.1 below)]
      simp only [List.getD_eq_getElem?_getD, List.getElem?_set]
      by_cases same : y = x
      · subst same
        by_cases inside : y < p.w + p.cells.length
        · rw [if_pos rfl, if_pos (by omega), if_pos (by omega), Option.getD_some]
        · rw [if_pos rfl, if_neg (by omega), if_neg (by omega), List.getElem?_eq_none (by omega)]
      · rw [if_neg (by omega), if_neg (by omega)]
theorem cell_rebase (p : SerialPart) (w x : Nat) :
    (p.rebase w).cell x = if w ≤ x ∧ x < w + Config.windowSize then p.cell x else ⟨0, false⟩ := by
  have len : (p.rebase w).cells.length = Config.windowSize := by simp [SerialPart.rebase]
  by_cases below : x < w
  · rw [cell_below (p := p.rebase w) below, if_neg (by omega)]
  · by_cases above : w + Config.windowSize ≤ x
    · rw [cell_above (p := p.rebase w) (len ▸ above), if_neg (by omega)]
    · obtain ⟨i, rfl⟩ := Nat.exists_eq_add_of_le (Nat.not_lt.1 below)
      rw [if_pos (by omega), show (p.rebase w).cell (w + i) = (p.rebase w).cells[i]'(by omega) from cell_getElem _]
      simp [SerialPart.rebase]

/-- R42: the cells that stay keep their counts and flags as the window moves up. -/
theorem cell_rebase_of_le {p : SerialPart} {w x : Nat} (len : p.cells.length = Config.windowSize) (up : p.w ≤ w) (hx : w ≤ x) :
    (p.rebase w).cell x = p.cell x := by
  rw [cell_rebase]
  split
  · rfl
  · exact (cell_above (by omega)).symm

/-! The advance. -/

/-- R51: how many cells the base advances past. -/
def SerialPart.completed (p : SerialPart) (q : Nat) : Nat := p.cells.findIdx fun c => !c.complete q

theorem advance_eq (p : SerialPart) (q : Nat) : p.advance q = p.rebase (p.w + p.completed q) := by
  rw [SerialPart.advance, List.takeWhile_eq_take_findIdx_not, List.length_take, Nat.min_eq_left List.findIdx_le_length]
  rfl
theorem advance_w (p : SerialPart) (q : Nat) : (p.advance q).w = p.w + p.completed q := by rw [advance_eq]; rfl
/-- R51: the base advances past complete cells alone. -/
theorem complete_of_lt_advance {p : SerialPart} {q x : Nat} (from_w : p.w ≤ x) (h : x < (p.advance q).w) :
    q ≤ (p.cell x).count := by
  obtain ⟨i, rfl⟩ := Nat.exists_eq_add_of_le from_w
  rw [advance_w] at h
  have passed : i < p.completed q := by omega
  rw [cell_getElem (Nat.lt_of_lt_of_le passed List.findIdx_le_length)]
  simpa [Cell.complete] using List.not_of_lt_findIdx passed
/-- R51: the advance stops at a cell that is not complete. -/
theorem incomplete_at_advance (p : SerialPart) {q : Nat} (hq : 1 ≤ q) : (p.cell (p.advance q).w).count < q := by
  rw [advance_w]
  by_cases inside : p.completed q < p.cells.length
  · rw [cell_getElem inside]
    have stops : (!p.cells[p.completed q].complete q) = true := List.findIdx_getElem (w := inside)
    simpa [Cell.complete] using stops
  · rw [cell_above (by omega)]
    exact hq

/-! The form of a window. -/

/-- R42, R43: 64 cells of counts 0 to 7, and no ordinal above top has a count, nor any while top is absent. -/
def SerialPart.fits (p : SerialPart) (top : Option Nat) : Prop :=
  p.cells.length = Config.windowSize ∧ (∀ x, (p.cell x).count ≤ Config.cellMax) ∧
  ∀ x, (∀ h ∈ top, h < x) → (p.cell x).count = 0
/-- The part p' is p with its window moved, marked or flagged: the other fields of R16 stand. -/
def SerialPart.moved (p p' : SerialPart) : Prop := p' = { p with w := p'.w, h := p'.h, cells := p'.cells }

theorem moved_refl (p : SerialPart) : p.moved p := rfl
theorem moved_trans {p p' p'' : SerialPart} (h : p.moved p') (h' : p'.moved p'') : p.moved p'' := by
  unfold SerialPart.moved at *
  rw [h']
  rw [h]
theorem inBounds_of_moved {p p' : SerialPart} (h : p.moved p') (bounds : p.inBounds) : p'.inBounds := by
  rw [h]
  exact bounds
theorem moved_setCell (p : SerialPart) (x : Nat) (c : Cell) : p.moved (p.setCell x c) := by
  unfold SerialPart.setCell
  split <;> rfl
theorem moved_rebase (p : SerialPart) (w : Nat) : p.moved (p.rebase w) := rfl
theorem moved_advance (p : SerialPart) (q : Nat) : p.moved (p.advance q) := rfl
theorem moved_received (p : SerialPart) (last : Nat) : p.moved (p.received last) := rfl

@[simp] theorem setCell_fields (p : SerialPart) (x : Nat) (c : Cell) :
    (p.setCell x c).w = p.w ∧ (p.setCell x c).h = p.h ∧ (p.setCell x c).cells.length = p.cells.length := by
  unfold SerialPart.setCell
  split <;> simp
theorem fits_setCell {p : SerialPart} {top : Option Nat} {x : Nat} {c : Cell} (h : p.fits top) (count : c.count ≤ Config.cellMax)
    (clear : (∀ h ∈ top, h < x) → c.count = 0) : (p.setCell x c).fits top := by
  obtain ⟨len, small, empty⟩ := h
  refine ⟨by simpa using len, fun y => ?_, fun y above => ?_⟩ <;> rw [cell_setCell] <;> split
  · exact count
  · exact small y
  · next at_x => exact clear (at_x.1 ▸ above)
  · exact empty y above
theorem fits_rebase {p : SerialPart} {top : Option Nat} (h : p.fits top) (w : Nat) : (p.rebase w).fits top := by
  obtain ⟨-, small, empty⟩ := h
  refine ⟨by simp [SerialPart.rebase], fun y => ?_, fun y above => ?_⟩ <;> rw [cell_rebase] <;> split
  · exact small y
  · exact Nat.zero_le _
  · exact empty y above
  · rfl
/-- R44: flags leave the counts and the place of the window alone. -/
theorem flagRange_keeps (p : SerialPart) (first last : Nat) :
    p.moved (p.flagRange first last) ∧ (p.flagRange first last).w = p.w ∧ (p.flagRange first last).h = p.h ∧
    ∀ top, p.fits top → (p.flagRange first last).fits top := by
  unfold SerialPart.flagRange
  refine foldl_keeps (P := fun p' : SerialPart => p.moved p' ∧ p'.w = p.w ∧ p'.h = p.h ∧ ∀ top, p.fits top → p'.fits top) ?_ _ _
    ⟨moved_refl p, rfl, rfl, fun _ h => h⟩
  rintro p' x ⟨moves, w, h, keeps⟩
  refine ⟨moved_trans moves (moved_setCell _ _ _), by simp [w], by simp [h], fun top fits => ?_⟩
  have fits' := keeps top fits
  exact fits_setCell fits' (fits'.2.1 x) (fits'.2.2 x)

/-- R43: a window fits under a higher ordinal too. -/
theorem fits_up {p : SerialPart} {top : Option Nat} {last : Nat} (h : p.fits top) (up : ∀ x ∈ top, x ≤ last) : p.fits (some last) :=
  ⟨h.1, h.2.1, fun x above => h.2.2 x fun y hy => Nat.lt_of_le_of_lt (up y hy) (above last rfl)⟩

/-- R42, R43: the form of a window, said of the cell of each ordinal. -/
theorem wf_iff_fits (p : SerialPart) : p.wf ↔ p.fits p.h ∧ ∀ h ∈ p.h, p.w ≤ h + 1 ∧ h < p.w + Config.windowSize := by
  have counts : (∀ c ∈ p.cells, c.count ≤ Config.cellMax) ↔ ∀ x, (p.cell x).count ≤ Config.cellMax := by
    rw [forall_cell (P := fun _ c => c.count ≤ Config.cellMax) fun _ => Nat.zero_le _, List.forall_mem_iff_getElem]
  have empty : ((p.h = none → ∀ c ∈ p.cells, c.count = 0) ∧ ∀ h ∈ p.h, ∀ c ∈ p.cells.drop (h + 1 - p.w), c.count = 0) ↔
      ∀ x, (∀ h ∈ p.h, h < x) → (p.cell x).count = 0 := by
    rw [forall_cell (P := fun x c => (∀ h ∈ p.h, h < x) → c.count = 0) fun _ _ => rfl]
    cases p.h with
    | none => simp [List.forall_mem_iff_getElem]
    | some h =>
      simp only [reduceCtorEq, false_implies, true_and, Option.mem_some_iff, forall_eq', List.mem_drop_iff_getElem,
        forall_exists_index]
      constructor
      · intro all i hi above
        exact all _ (i - (h + 1 - p.w)) (by omega) (by congr 1; omega)
      · rintro all _ j hj rfl
        exact all _ _ (by omega)
  constructor
  · rintro ⟨len, small, none_empty, some_wf⟩
    exact ⟨⟨len, counts.1 small, empty.1 ⟨none_empty, fun h hh => (some_wf h hh).2.2⟩⟩,
      fun h hh => ⟨(some_wf h hh).1, (some_wf h hh).2.1⟩⟩
  · rintro ⟨⟨len, small, clear⟩, place⟩
    exact ⟨len, counts.2 small, (empty.2 clear).1, fun h hh => ⟨(place h hh).1, (place h hh).2, (empty.2 clear).2 h hh⟩⟩

/-- R24, R57: a window of clear cells with no ordinal received is in its form. -/
theorem wf_of_clear {p : SerialPart} (cells : p.cells = clearCells) (h : p.h = none) : p.wf := by
  have clear : ∀ c ∈ p.cells, c.count = 0 := by
    rw [cells]
    intro c hc
    rw [List.eq_of_mem_replicate hc]
  exact ⟨by simp [cells, clearCells], fun c hc => by simp [clear c hc], fun _ => clear, by simp [h]⟩
/-- R51: the base advances at most to one above the highest ordinal that has a count. -/
theorem advance_w_le {p : SerialPart} {q top : Nat} (hq : 1 ≤ q) (h : p.fits (some top)) (low : p.w ≤ top + 1) :
    (p.advance q).w ≤ top + 1 := by
  by_contra past
  have complete := complete_of_lt_advance low (Nat.lt_of_not_le past)
  rw [h.2.2 (top + 1) (by simp)] at complete
  omega
/-- R51: the advance keeps the form of a window. -/
theorem wf_advance {p : SerialPart} {q : Nat} (hq : 1 ≤ q) (h : p.wf) : (p.advance q).wf := by
  obtain ⟨fits, place⟩ := (wf_iff_fits p).1 h
  refine (wf_iff_fits _).2 ⟨fits_rebase fits _, fun top htop => ?_⟩
  change top ∈ p.h at htop
  obtain ⟨low, high⟩ := place top htop
  rw [Option.mem_def.1 htop] at fits
  exact ⟨advance_w_le hq fits low, by have := advance_w p q; omega⟩
/-- R44: flagging keeps the form of a window. -/
theorem wf_flagRange {p : SerialPart} (first last : Nat) (h : p.wf) : (p.flagRange first last).wf := by
  obtain ⟨fits, place⟩ := (wf_iff_fits p).1 h
  obtain ⟨-, w, top, keeps⟩ := flagRange_keeps p first last
  exact (wf_iff_fits _).2 ⟨by rw [top]; exact keeps _ fits, by rw [top, w]; exact place⟩

end Sys2Proof.Machine
end

section
/-! The seven steps of an arrival (R45 to R54): what they leave alone, and that they keep the form of the window. -/

namespace Sys2Proof.Machine

/-- One step of an arrival that leaves the window in its place: the Title Table stands, and where no ordinal above top had a count, none
has one after it. -/
def ArrivalStep.leads (top : Option Nat) (a b : ArrivalStep) : Prop :=
  b.state.table = a.state.table ∧ a.part.moved b.part ∧ b.part.w = a.part.w ∧ b.part.h = a.part.h ∧
  (a.part.fits top → b.part.fits top)

theorem leads_refl (top : Option Nat) (a : ArrivalStep) : a.leads top a := ⟨rfl, moved_refl _, rfl, rfl, id⟩
theorem leads_trans {top : Option Nat} {a b c : ArrivalStep} (h : a.leads top b) (h' : b.leads top c) : a.leads top c := by
  obtain ⟨table, moves, w, high, fits⟩ := h
  obtain ⟨table', moves', w', high', fits'⟩ := h'
  exact ⟨table'.trans table, moved_trans moves moves', w'.trans w, high'.trans high, fits' ∘ fits⟩
theorem foldl_leads {α : Type} {top : Option Nat} {f : ArrivalStep → α → ArrivalStep} (xs : List α) (a : ArrivalStep)
    (step : ∀ b : ArrivalStep, ∀ x ∈ xs, b.leads top (f b x)) : a.leads top (xs.foldl f a) :=
  List.foldlRecOn xs f (leads_refl top a) fun b h x hx => leads_trans h (step b x hx)

theorem satisfy_leads (top : Option Nat) (a : ArrivalStep) (k : Key) (flagged : Bool) (m : Nat) :
    a.leads top (a.satisfy k flagged m) := ⟨by simp [ArrivalStep.satisfy], moved_refl _, rfl, rfl, id⟩
/-- R53: a raise flags at most a range of the window. -/
theorem raise_leads (top : Option Nat) (a : ArrivalStep) (k : Key) (q : Nat) (cause : ClaimCause) (r : Nat × Nat) :
    a.leads top (a.raise k q cause r) := by
  obtain ⟨moves, w, high, fits⟩ := flagRange_keeps a.part r.1 r.2
  unfold ArrivalStep.leads ArrivalStep.raise
  refine ⟨by simp, ?_⟩
  dsimp only
  split
  · exact ⟨moves, w, high, fits top⟩
  · exact ⟨moved_refl _, rfl, rfl, id⟩
/-- R48: marking an ordinal counts a copy in its cell alone. -/
theorem mark_leads {top x : Nat} (a : ArrivalStep) (k : Key) (q : Nat) (hx : x ≤ top) :
    a.leads (some top) (ArrivalStep.mark k q a x) := by
  have marks (c : Cell) (small : c.count ≤ Config.cellMax) : a.leads (some top) { a with part := a.part.setCell x c } :=
    ⟨rfl, moved_setCell _ _ _, by simp, by simp, fun fits =>
      fits_setCell fits small fun above => absurd (above top rfl) (Nat.not_lt.2 hx)⟩
  unfold ArrivalStep.mark
  dsimp only
  split
  · exact leads_trans (marks _ (Nat.min_le_right _ _)) (satisfy_leads _ _ _ _ _)
  · exact marks _ (Nat.min_le_right _ _)

/-- R47: where the window stands once it has slid up to hold last. -/
theorem slide_part (a : ArrivalStep) (k : Key) (q last : Nat) (top : Option Nat) :
    (a.slide k q last).state.table = a.state.table ∧ a.part.moved (a.slide k q last).part ∧
    (a.slide k q last).part.w = max a.part.w (last + 1 - Config.windowSize) ∧ (a.slide k q last).part.h = a.part.h ∧
    (a.part.fits top → (a.slide k q last).part.fits top) := by
  unfold ArrivalStep.slide
  split
  · dsimp only
    generalize runs _ = leaving
    obtain ⟨table, moves, -, high, fits⟩ := foldl_leads (f := fun a r => a.raise k q .slidOut r) leaving a
      fun b r _ => raise_leads top b k q .slidOut r
    refine ⟨table, moved_trans moves (moved_rebase _ _), ?_, high, fun h => fits_rebase (fits h) _⟩
    simp only [SerialPart.rebase]
    omega
  · exact ⟨rfl, moved_refl _, by omega, rfl, id⟩

/-- R49: the highest received ordinal after an arrival is at least that of before and the arrival's last. -/
theorem received_h (p : SerialPart) (last : Nat) : (p.received last).h = some (p.reached last) := by
  unfold SerialPart.received SerialPart.reached
  cases p.h <;> rfl
theorem le_reached (p : SerialPart) (last : Nat) : last ≤ p.reached last ∧ ∀ h ∈ p.h, h ≤ p.reached last := by
  unfold SerialPart.reached
  cases p.h <;> simp

/-- R49, R50: the highest received ordinal after an arrival, and the gaps raised behind it. -/
def ArrivalStep.raiseGaps (a : ArrivalStep) (k : Key) (q last : Nat) : ArrivalStep :=
  ((a.part.received last).gaps q).foldl (fun a r => a.raise k q .gap r) { a with part := a.part.received last }
/-- R49 to R51: what an arrival does once its ordinals are marked. -/
def ArrivalStep.closeGaps (a : ArrivalStep) (k : Key) (q last : Nat) : ArrivalStep :=
  { a.raiseGaps k q last with part := (a.raiseGaps k q last).part.advance q }
/-- R45: the steps of an arrival: the satisfactions behind the window, and where an ordinal is not behind it, the slide, the marking and
the gaps. -/
theorem commit_eq (a : ArrivalStep) (k : Key) (q n span : Nat) :
    a.commit k q n span =
      let b := ((coveredBy n span).filter fun x => decide (x < a.part.w)).foldl (fun a m => a.satisfy k false m) a
      let live := (coveredBy n span).filter fun x => decide (a.part.w ≤ x)
      if live.isEmpty then b
      else (live.foldl (ArrivalStep.mark k q) (b.slide k q (n + span - 1))).closeGaps k q (n + span - 1) := rfl

theorem raiseGaps_part (a : ArrivalStep) (k : Key) (q last : Nat) (top : Option Nat) :
    (a.raiseGaps k q last).state.table = a.state.table ∧ a.part.moved (a.raiseGaps k q last).part ∧
    (a.raiseGaps k q last).part.w = a.part.w ∧ (a.raiseGaps k q last).part.h = some (a.part.reached last) ∧
    (a.part.fits top → (a.raiseGaps k q last).part.fits top) := by
  unfold ArrivalStep.raiseGaps
  generalize (a.part.received last).gaps q = gaps
  obtain ⟨table, moves, w, high, fits⟩ := foldl_leads (f := fun a r => a.raise k q .gap r) gaps
    { a with part := a.part.received last } fun c r _ => raise_leads top c k q .gap r
  exact ⟨table, moved_trans (moved_received _ _) moves, w, high.trans (received_h a.part last), fits⟩
theorem closeGaps_part (a : ArrivalStep) (k : Key) (q last : Nat) :
    (a.closeGaps k q last).state.table = a.state.table ∧ a.part.moved (a.closeGaps k q last).part ∧
    (1 ≤ q → a.part.fits (some (a.part.reached last)) → a.part.w ≤ last + 1 →
      a.part.reached last < a.part.w + Config.windowSize → (a.closeGaps k q last).part.wf) := by
  obtain ⟨table, moves, w, top, fits⟩ := raiseGaps_part a k q last (some (a.part.reached last))
  unfold ArrivalStep.closeGaps
  generalize a.raiseGaps k q last = b at *
  refine ⟨table, moved_trans moves (moved_advance _ _), fun hq fits_a low below => ?_⟩
  obtain ⟨above, -⟩ := le_reached a.part last
  refine (wf_iff_fits _).2 ⟨fits_rebase (top ▸ fits fits_a) _, fun h hh => ?_⟩
  obtain rfl : a.part.reached last = h := Option.some.inj (top.symm.trans hh)
  have up := advance_w b.part q
  exact ⟨advance_w_le hq (fits fits_a) (by omega), by simp only; omega⟩

/-- R43, R49: the highest received ordinal is within the window that has slid up to hold the arrival. -/
theorem reached_within {p : SerialPart} {w : Nat} (last : Nat) (h : p.wf) (hw : w = max p.w (last + 1 - Config.windowSize)) :
    p.reached last < w + Config.windowSize := by
  obtain ⟨-, place⟩ := (wf_iff_fits p).1 h
  unfold SerialPart.reached Config.windowSize at *
  cases high : p.h with
  | none => simp only; omega
  | some top =>
    have := (place top high).2
    simp only
    omega

/-- R45, R52: a committed arrival leaves the Title Table to its caller, and keeps the form of the window. -/
theorem commit_part (a : ArrivalStep) (k : Key) (q n span : Nat) :
    (a.commit k q n span).state.table = a.state.table ∧ a.part.moved (a.commit k q n span).part ∧
    (1 ≤ q → a.part.wf → (a.commit k q n span).part.wf) := by
  rw [commit_eq]
  dsimp only
  obtain ⟨table_b, part_b⟩ := foldl_keeps (f := fun a m => ArrivalStep.satisfy a k false m)
    (P := fun x : ArrivalStep => x.state.table = a.state.table ∧ x.part = a.part)
    (fun x m h => ⟨by simp [ArrivalStep.satisfy, h.1], h.2⟩)
    ((coveredBy n span).filter fun x => decide (x < a.part.w)) a ⟨rfl, rfl⟩
  generalize List.foldl _ a _ = b at *
  have covered : ∀ x ∈ (coveredBy n span).filter (fun x => decide (a.part.w ≤ x)), x ≤ n + span - 1 ∧ a.part.w ≤ x := by
    intro x hx
    simp only [coveredBy, List.mem_filter, List.mem_range'_1, decide_eq_true_eq] at hx
    omega
  generalize (coveredBy n span).filter (fun x => decide (a.part.w ≤ x)) = live at *
  generalize n + span - 1 = last at *
  cases live with
  | nil =>
    rw [List.isEmpty_nil, if_pos rfl, part_b]
    exact ⟨table_b, moved_refl _, fun _ h => h⟩
  | cons y ys =>
    rw [if_neg (by simp)]
    obtain ⟨above, above_h⟩ := le_reached a.part last
    obtain ⟨table_s, moves_s, w_s, high_s, fits_s⟩ := slide_part b k q last (some (a.part.reached last))
    obtain ⟨table_m, moves_m, w_m, high_m, fits_m⟩ :=
      foldl_leads (f := ArrivalStep.mark k q) (y :: ys) (b.slide k q last)
        fun c x hx => mark_leads c k q (Nat.le_trans (covered x hx).1 above)
    generalize List.foldl (ArrivalStep.mark k q) _ _ = m at *
    obtain ⟨table_g, moves_g, wf_g⟩ := closeGaps_part m k q last
    rw [part_b] at moves_s w_s high_s fits_s
    have w : m.part.w = max a.part.w (last + 1 - Config.windowSize) := w_m.trans w_s
    have reached : m.part.reached last = a.part.reached last := by
      unfold SerialPart.reached
      rw [high_m, high_s]
    rw [reached] at wf_g
    refine ⟨table_g.trans (table_m.trans (table_s.trans table_b)), moved_trans moves_s (moved_trans moves_m moves_g),
      fun hq wf => wf_g hq (fits_m (fits_s (fits_up ((wf_iff_fits _).1 wf).1 above_h))) ?_ (reached_within last wf w)⟩
    have := covered y List.mem_cons_self
    unfold Config.windowSize at w
    omega

end Sys2Proof.Machine
end

section
/-! What the operations of the lanes leave alone: the waiting commands, and the account of titles, claims and accession numbers. -/

namespace Sys2Proof.Machine

/-- The commands that wait and the account stand. -/
def State.agrees (s t : State) : Prop := t.pending = s.pending ∧ SameAccount s t

theorem agrees_refl (s : State) : s.agrees s := ⟨rfl, rfl, rfl, rfl⟩
theorem agrees_trans {s t u : State} (h : s.agrees t) (h' : t.agrees u) : s.agrees u := by
  obtain ⟨pending, table, claims, decision⟩ := h
  obtain ⟨pending', table', claims', decision'⟩ := h'
  exact ⟨pending'.trans pending, table'.trans table, claims'.trans claims, decision'.trans decision⟩
theorem foldl_agrees {α : Type} {f : State → α → State} (step : ∀ (s : State) (a : α), s.agrees (f s a)) (xs : List α) (s : State) :
    s.agrees (xs.foldl f s) :=
  foldl_keeps (P := s.agrees) (fun u a h => agrees_trans h (step u a)) xs s (agrees_refl s)
/-- What every step of a branch keeps, both branches keep. -/
theorem agrees_ite {s t u : State} (c : Prop) [Decidable c] (ht : s.agrees t) (hu : s.agrees u) : s.agrees (if c then t else u) := by
  split
  · exact ht
  · exact hu

theorem agrees_onLane (s : State) (l : LaneId) (f : Lane → Lane) : s.agrees (s.onLane l f) := ⟨rfl, rfl, rfl, rfl⟩
theorem agrees_onCounters (s : State) (l : LaneId) (f : LaneCounters → LaneCounters) : s.agrees (s.onCounters l f) :=
  agrees_onLane s l _
theorem agrees_onReport (s : State) (f : ReportUnit → ReportUnit) : s.agrees (s.onReport f) := ⟨rfl, rfl, rfl, rfl⟩
theorem agrees_setConsignment (s : State) (l : LaneId) (c : Option Consignment) : s.agrees (s.setConsignment l c) :=
  ⟨rfl, rfl, rfl, rfl⟩
theorem agrees_send (s : State) (l : LaneId) (r : LaneOut) : s.agrees (s.send l r) := agrees_onLane s l _
theorem agrees_laneNotice (s : State) (l : LaneId) (c : NoticeCondition) (e : Edge) (d : Detail) :
    s.agrees (s.laneNotice l c e d) := by simp [State.agrees, SameAccount]
theorem agrees_ask (s : State) (a : Source) (c : NoticeCondition) (e : Edge) (d : Detail) :
    s.agrees (s.ask a c e d) := by simp [State.agrees, SameAccount]
theorem agrees_reevaluate (s : State) (l : LaneId) : s.agrees (s.reevaluate l) := by simp [State.agrees, SameAccount]
theorem agrees_levelNotice (s : State) (l : LaneId) (v : LaneLevel) : s.agrees (s.levelNotice l v) := by
  simp [State.agrees, SameAccount]
theorem agrees_settleReport (s : State) : s.agrees s.settleReport := by simp [State.agrees, SameAccount]
theorem agrees_endItem (s : State) (l : LaneId) (i : Item) (o : ItemOutcome) (x : Fin 8) (r : Reason) (c : ConfirmResult)
    (f : Bool) : s.agrees (s.endItem l i o x r c f) := by simp [State.agrees, SameAccount]
theorem agrees_closeWindow (s : State) (l : LaneId) (r : ConfirmResult) : s.agrees (s.closeWindow l r) := by
  simp [State.agrees, SameAccount]
theorem agrees_closeConsignment (s : State) (l : LaneId) (c : CloseCause) : s.agrees (s.closeConsignment l c) := by
  simp [State.agrees, SameAccount]
theorem agrees_violate (s : State) (l : LaneId) (c : ViolationCause) (t : RecordType) (q : Seq) :
    s.agrees (s.violate l c t q) := by simp [State.agrees, SameAccount]
theorem agrees_sweepLane (s : State) (l : LaneId) (r : Reason) : s.agrees (s.sweepLane l r) := by
  simp [State.agrees, SameAccount]
theorem agrees_grant (s : State) : s.agrees s.grant := by simp [State.agrees, SameAccount]

/-! The taking of a station record. -/

theorem agrees_countStale (s : State) (l : LaneId) : s.agrees (s.countStale l) := agrees_onCounters s l _
theorem agrees_countLinkError (s : State) (l : LaneId) : s.agrees (s.countLinkError l) := agrees_onCounters s l _
theorem agrees_noteBelt (s : State) (l : LaneId) (b : Belt) (d : Diverter) : s.agrees (s.noteBelt l b d) := agrees_onLane s l _
theorem agrees_restartSilence (s : State) (l : LaneId) : s.agrees (s.restartSilence l) := agrees_onLane s l _
theorem agrees_feedTest (s : State) (l : LaneId) : s.agrees (s.feedTest l) := agrees_onLane s l _
theorem agrees_reportOf (s : State) (l : LaneId) (r : StationRecord) : s.agrees (s.reportOf l r) := by
  cases r with
  | heartbeat b d => exact agrees_noteBelt s l b d
  | itemBegin | observation | itemEnd | atGate | confirm => exact agrees_refl s
theorem agrees_echo (s : State) (l : LaneId) (r : StationRecord) : s.agrees (s.echo l r) :=
  agrees_trans (agrees_onLane s l _) (agrees_send _ l _)
theorem agrees_enterActive (s : State) (l : LaneId) : s.agrees (s.enterActive l) :=
  agrees_trans (agrees_onLane s l _) (agrees_trans (agrees_laneNotice _ l _ _ _) (agrees_reevaluate _ l))
/-- R66, R173: a record taken in ACTIVE reaches the account by what the lane does with it alone. -/
theorem agrees_takeRecord (s : State) (l : LaneId) (r : StationRecord) (act : State → State) :
    s.agrees (s.takeRecord l r act) ∨ (act s).agrees (s.takeRecord l r act) := by
  unfold State.takeRecord
  split
  · exact .inl (agrees_trans (agrees_reportOf s l r) (agrees_echo _ l r))
  · exact .inr (agrees_feedTest _ l)
/-- R66 to R69: a station record reaches the account by what an ACTIVE lane does with it alone. -/
theorem agrees_receive (s : State) (l : LaneId) (r : StationRecord) (act : State → State) :
    s.agrees (s.receive l r act) ∨ ∃ u, s.agrees u ∧ (act u).agrees (s.receive l r act) := by
  have taken (u : State) (h : s.agrees u) : s.agrees (u.takeRecord l r act) ∨ ∃ u', s.agrees u' ∧ (act u').agrees (u.takeRecord l r act) := by
    obtain stays | acts := agrees_takeRecord u l r act
    · exact .inl (agrees_trans h stays)
    · exact .inr ⟨u, h, acts⟩
  unfold State.receive
  split
  · exact .inl (agrees_refl s)
  · refine .inl (agrees_ite _ (agrees_countLinkError s l) ?_)
    cases r with
    | heartbeat b d => exact agrees_noteBelt s l b d
    | itemBegin | observation | itemEnd | atGate | confirm => exact agrees_countStale s l
  · split
    · exact .inl (agrees_countLinkError s l)
    · exact taken _ (agrees_restartSilence s l)
  · split
    · exact .inl (agrees_countLinkError s l)
    · split
      · exact taken _ (agrees_enterActive s l)
      · have counted := agrees_trans (agrees_countStale s l) (agrees_restartSilence _ l)
        exact .inl (agrees_ite _ (agrees_trans counted (agrees_echo _ l r)) counted)

/-! Admission and observations. -/

theorem agrees_refuseItem (s : State) (l : LaneId) (sq : Seq) : s.agrees (s.refuseItem l sq) :=
  agrees_trans (agrees_onLane s l _) (agrees_send _ l _)
theorem agrees_reserveAdmission (s : State) (l : LaneId) : s.agrees (s.reserveAdmission l).1 := by
  unfold State.reserveAdmission State.joinConsignment
  split
  · split
    · exact agrees_onReport s _
    · exact agrees_trans (agrees_onReport s _) (agrees_setConsignment _ l _)
  · exact agrees_refl s
theorem agrees_admitItem (s : State) (l : LaneId) (sq : Seq) : s.agrees (s.admitItem l sq) := by
  refine agrees_trans (t := State.levelNotice _ l _) ?_ (agrees_trans (agrees_ite _ (agrees_settleReport _) (agrees_refl _)) (agrees_reevaluate _ l))
  exact agrees_trans (agrees_reserveAdmission s l)
    (agrees_trans (agrees_onLane _ l _) (agrees_trans (agrees_send _ l _) (agrees_levelNotice _ l _)))
theorem agrees_beginItem (s : State) (l : LaneId) (sq : Seq) : s.agrees (s.beginItem l sq) :=
  agrees_ite _ (agrees_violate s l _ _ _) (agrees_ite _ (agrees_violate s l _ _ _)
    (agrees_ite _ (agrees_refuseItem s l sq) (agrees_admitItem s l sq)))
theorem agrees_joinReading (s : State) (l : LaneId) (o : Observation) : s.agrees (s.joinReading l o) := agrees_onLane s l _
theorem agrees_misdirected (s : State) (l : LaneId) (t : RecordType) (sq : Seq) : s.agrees (s.misdirected l t sq) :=
  agrees_ite _ (agrees_countStale s l) (agrees_violate s l _ _ _)
theorem agrees_observe (s : State) (l : LaneId) (sq : Seq) (o : Observation) : s.agrees (s.observe l sq o) :=
  agrees_ite _ (agrees_joinReading s l o) (agrees_misdirected s l _ _)
theorem agrees_testItemEnd (s : State) (l : LaneId) (i : Item) : s.agrees (s.testItemEnd l i) :=
  agrees_ite _ (agrees_onLane s l _) (agrees_trans (agrees_onLane s l _) (agrees_laneNotice _ l _ _ _))

/-! The gate. -/

theorem agrees_sendRunOut (s : State) (l : LaneId) (sq : Seq) : s.agrees (s.sendRunOut l sq) :=
  agrees_trans (agrees_onCounters s l _) (agrees_send _ l _)
theorem agrees_missItem (l : LaneId) (s : State) (i : Item) : s.agrees (State.missItem l s i) :=
  agrees_trans (agrees_onCounters s l _) (agrees_endItem _ l _ _ _ _ _ _)
theorem agrees_pairHead (s : State) (l : LaneId) (i : Item) : s.agrees (s.pairHead l i) := by
  have late : s.agrees (s.lateItem l i) :=
    agrees_trans (agrees_onCounters s l _) (agrees_trans (agrees_sendRunOut _ l _) (agrees_endItem _ l _ _ _ _ _ _))
  have fault : s.agrees (s.faultItem l i) := agrees_trans (agrees_sendRunOut s l _) (agrees_endItem _ l _ _ _ _ _ _)
  have divert : s.agrees (s.divertItem l i) := agrees_ite _ (agrees_trans (agrees_sendRunOut s l _) (agrees_onLane _ l _))
    (agrees_trans (agrees_onCounters s l _) (agrees_trans (agrees_send _ l _) (agrees_onLane _ l _)))
  exact agrees_ite _ late (agrees_ite _ fault divert)
theorem agrees_pairGate (s : State) (l : LaneId) (sq : Seq) : s.agrees (s.pairGate l sq) := by
  unfold State.pairGate
  dsimp only
  generalize (s.lane l).queue.dropWhile _ = rest
  refine agrees_trans ?_ (agrees_trans (agrees_levelNotice _ l _) (agrees_reevaluate _ l))
  have cut := agrees_trans (agrees_closeWindow s l .noConfirm) (agrees_trans (foldl_agrees (agrees_missItem l)
    ((s.lane l).queue.takeWhile fun i => i.sq != sq) _) (agrees_onLane _ l fun v => { v with queue := rest.tail }))
  cases rest with
  | nil => exact cut
  | cons i t => exact agrees_trans cut (agrees_pairHead _ l i)
theorem agrees_phantom (s : State) (l : LaneId) (sq : Seq) : s.agrees (s.phantom l sq) :=
  agrees_trans (agrees_closeWindow s l _) (agrees_trans (agrees_onCounters _ l _)
    (agrees_trans (agrees_sendRunOut _ l _) (agrees_laneNotice _ l _ _ _)))
theorem agrees_gate (s : State) (l : LaneId) (sq : Seq) : s.agrees (s.gate l sq) :=
  agrees_ite _ (agrees_pairGate s l sq) (agrees_ite _ (agrees_countStale s l)
    (agrees_ite _ (agrees_phantom s l sq) (agrees_violate s l _ _ _)))
theorem agrees_confirmItem (s : State) (l : LaneId) (sq : Seq) (outlet : Byte) : s.agrees (s.confirmItem l sq outlet) := by
  unfold State.confirmItem
  split
  · exact agrees_countStale s l
  · exact agrees_ite _ (agrees_closeWindow s l _) (agrees_countStale s l)

/-! Events of a lane, its commands, and RESTART. -/

theorem agrees_silenceExpired (s : State) (l : LaneId) : s.agrees (s.silenceExpired l) := by
  unfold State.silenceExpired
  split
  · exact agrees_trans (agrees_onLane s l _) (agrees_trans (agrees_restartSilence _ l)
      (agrees_trans (agrees_laneNotice _ l _ _ _) (agrees_reevaluate _ l)))
  · exact agrees_restartSilence s l
  · exact agrees_refl s
theorem agrees_takeNews (s : State) (l : LaneId) : s.agrees (s.takeNews l) := by
  unfold State.takeNews
  split
  · exact agrees_refl s
  · exact agrees_trans (agrees_onLane s l _) (agrees_reevaluate _ l)
theorem agrees_leavingNotice (s : State) (l : LaneId) (before : LaneState) : s.agrees (s.leavingNotice l before) := by
  cases before with
  | silent | stopped => exact agrees_laneNotice s l _ _ _
  | active | disabled => exact agrees_refl s
theorem agrees_disableLane (s : State) (l : LaneId) (r : Reason) : s.agrees (s.disableLane l r) :=
  agrees_trans (agrees_sweepLane s l r) (agrees_trans (agrees_onLane _ l _)
    (agrees_trans (agrees_leavingNotice _ l _) (agrees_reevaluate _ l)))
theorem agrees_clearFault (s : State) (l : LaneId) : s.agrees (s.clearFault l) :=
  agrees_ite _ (agrees_trans (agrees_onLane s l _) (agrees_laneNotice _ l _ _ _)) (agrees_onLane s l _)
theorem agrees_restartLane (s : State) (l : LaneId) : s.agrees (s.restartLane l) := by
  have disabled : s.agrees (if (s.lane l).state = .disabled then s else s.disableLane l .restarted) :=
    agrees_ite _ (agrees_refl s) (agrees_disableLane s l _)
  have cleared (u : State) : u.agrees (u.clearStray l) := ⟨rfl, rfl, rfl, rfl⟩
  exact agrees_trans disabled (agrees_trans (agrees_onLane _ l _) (agrees_trans (cleared _) (agrees_clearFault _ l)))
theorem agrees_complete (s : State) (e : EngineContext) (t : Termination) (next : Nat) (hit : Option Hit) :
    s.agrees (s.complete e t next hit) := ⟨rfl, rfl, rfl, rfl⟩
theorem agrees_goOn (s : State) (e : EngineContext) : s.agrees (s.goOn e) :=
  agrees_ite _ (agrees_complete s e _ _ _) ⟨rfl, rfl, rfl, rfl⟩
theorem agrees_endEngine (s : State) : s.agrees s.endEngine := by
  unfold State.endEngine
  split
  · exact agrees_refl s
  · exact agrees_complete s _ _ _ _
theorem agrees_runRestart (s : State) : s.agrees s.runRestart.1 := by
  have lanes := foldl_agrees agrees_restartLane allLanes s
  unfold State.runRestart
  generalize allLanes.foldl State.restartLane s = u at *
  exact agrees_trans lanes (agrees_trans (agrees_endEngine u) (agrees_ask _ _ _ _ _))

/-! What a decision tells the consignment unit and raises. -/

theorem agrees_countMember (s : State) (l : LaneId) (number : Option Nat) (normal : Bool) (r : Reason) :
    s.agrees (s.countMember l number normal r) := by
  unfold State.countMember
  split
  · exact agrees_refl s
  · exact agrees_ite _ (agrees_setConsignment s l _) (agrees_refl s)
theorem agrees_openConsignment (s : State) (l : LaneId) (c : SlipContent) : s.agrees (s.openConsignment l c).1 := by
  unfold State.openConsignment
  split
  · exact ⟨rfl, rfl, rfl, rfl⟩
  · exact agrees_refl s
theorem agrees_slipAction (s : State) (l : LaneId) (r : Reason) (c : SlipContent) : s.agrees (s.slipAction l r c).1 := by
  unfold State.slipAction
  split
  · exact agrees_trans (agrees_closeConsignment s l _) (agrees_openConsignment _ l c)
  · split
    · exact ⟨rfl, rfl, rfl, rfl⟩
    · exact agrees_closeConsignment s l _
  · exact agrees_refl s
theorem agrees_informConsignment (s : State) (l : LaneId) (number : Option Nat) (d : Draft) :
    s.agrees (s.informConsignment l number d).1 := by
  unfold State.informConsignment
  dsimp only
  split
  · exact agrees_trans (agrees_countMember s l _ _ _) (agrees_slipAction _ l _ _)
  · exact agrees_countMember s l _ _ _
/-- R118: raising what a decision raises touches of the account the exhaustion notice flag alone. -/
theorem raiseDecision_fields (s : State) (l : LaneId) (sq : Seq) (n : Nat) (d : Draft) (a : SlipAction) :
    (s.raiseDecision l sq n d a).pending = s.pending ∧ (s.raiseDecision l sq n d a).table = s.table ∧
    (s.raiseDecision l sq n d a).claims = s.claims := by
  have exhaustion : (s.exhaustion l sq).pending = s.pending ∧ (s.exhaustion l sq).table = s.table ∧
      (s.exhaustion l sq).claims = s.claims := by
    unfold State.exhaustion
    split <;> simp
  unfold State.raiseDecision
  split
  · simp
  · split
    · simp [State.onCounters]
    · exact exhaustion
    · simp
/-- R108, R109: of the account, a decision changes what its identification changes, and the exhaustion notice flag. -/
theorem decideItem_fields (s : State) (l : LaneId) (i : Item) (is : List Ident) (his : is = i.idents) :
    (s.decideItem l i).pending = (s.identify l is).1.pending ∧ (s.decideItem l i).table = (s.identify l is).1.table ∧
    (s.decideItem l i).claims = (s.identify l is).1.claims := by
  subst his
  unfold State.decideItem Item.idents
  dsimp only
  generalize State.identify s l _ = out
  obtain ⟨pending, table, claims, -⟩ := agrees_informConsignment out.1 l i.consignment out.2
  simp [raiseDecision_fields, pending, table, claims]

end Sys2Proof.Machine
end

section
/-! The form of the Title Table and the bounds of its records (R16, R17, R19): what every change of a record keeps, command by command. -/

namespace Sys2Proof.Machine

/-! Tables. -/

/-- From t to u the table keeps its form, and its records their bounds. -/
def TitleTable.keeps (t u : TitleTable) : Prop := t.wf → u.wf ∧ (t.recordsWf → u.recordsWf)

theorem keeps_refl (t : TitleTable) : t.keeps t := fun h => ⟨h, id⟩
theorem keeps_of_eq {t u : TitleTable} (h : u = t) : t.keeps u := h ▸ keeps_refl t
theorem keeps_trans {t u v : TitleTable} (h : t.keeps u) (h' : u.keeps v) : t.keeps v := fun wf =>
  have ⟨wf_u, records_u⟩ := h wf
  have ⟨wf_v, records_v⟩ := h' wf_u
  ⟨wf_v, records_v ∘ records_u⟩
theorem keeps_of_agrees {s t : State} (h : s.agrees t) : s.table.keeps t.table := keeps_of_eq h.2.1
/-- R19: a record put in a slot must be within its bounds; the others stand. -/
theorem keeps_of_puts {t u : TitleTable} {n : Nat} {r : TitleRecord} (h : t.putsRecord u n r) (records : t.recordsWf → r.wf) :
    t.keeps u := by
  obtain ⟨wf, day, slots⟩ := h
  refine fun _ => ⟨wf, fun hr => ⟨day ▸ hr.1, fun e he => ?_⟩⟩
  obtain ⟨old, -⟩ | rfl := (slots e).1 he
  · exact hr.2 e old
  · exact records hr
/-- R19: a record that stands may take new fields within their bounds, but its key. -/
theorem keeps_place {t : TitleTable} {n : Nat} {old r : TitleRecord} (hm : (n, old) ∈ t.slots) (key : r.key = old.key)
    (records : dayWf t.day → old.wf → r.wf) : t.keeps (t.place n r) := fun wf =>
  keeps_of_puts (place_puts_of_mem wf hm key) (fun hr => records hr.1 (hr.2 _ hm)) wf
/-- R20, R166: a slot freed leaves the others as they are. -/
theorem keeps_free (t : TitleTable) (n : Nat) : t.keeps (t.free n) := by
  rintro ⟨rising, below, keys⟩
  have sub : (t.free n).slots.Sublist t.slots := List.filter_sublist
  exact ⟨⟨rising.sublist (sub.map _), fun e he => below e (sub.subset he), keys.sublist (sub.map _)⟩,
    fun ⟨day, records⟩ => ⟨day, fun e he => records e (sub.subset he)⟩⟩
theorem dayWf_none : dayWf none := fun _ h => nomatch h
/-- R35: a table with no record is in its form. -/
theorem keeps_reset (t : TitleTable) : t.keeps .reset := fun _ =>
  ⟨⟨.nil, by simp [TitleTable.reset], .nil⟩, fun _ => ⟨dayWf_none, by simp [TitleTable.reset]⟩⟩
/-- R21: a day comes in two bytes. -/
theorem keeps_day (t : TitleTable) (d : Half) : t.keeps { t with day := some d.toNat } := fun wf =>
  ⟨wf, fun ⟨_, records⟩ => ⟨fun x hx => by cases hx; have := d.isLt; omega, records⟩⟩
theorem today_le {t : TitleTable} (h : dayWf t.day) : t.today ≤ 65535 := by
  unfold TitleTable.today
  cases day : t.day with
  | none => simp
  | some d => exact h d day
/-- The record of a slot stands in the table. -/
theorem at_mem {t : TitleTable} {n : Nat} {r : TitleRecord} (h : t.at n = some r) : (n, r) ∈ t.slots := by
  obtain ⟨⟨m, x⟩, found, rfl⟩ := Option.map_eq_some_iff.1 h
  have slot := List.find?_some found
  obtain rfl : m = n := by simpa using slot
  exact List.mem_of_find?_eq_some found

/-! Records. -/

theorem kind_monograph {r : TitleRecord} {m : MonographPart} (h : r.body = .monograph m) : r.kind = .monograph := by
  simp [TitleRecord.kind, h]
theorem kind_serial {r : TitleRecord} {p : SerialPart} (h : r.body = .serial p) : r.kind = .serial := by
  simp [TitleRecord.kind, h]
theorem ok_monograph_iff (m : MonographPart) :
    (TitleBody.monograph m).ok = true ↔ m.copies ≤ Config.copiesMax ∧ dayWf m.due := by simp [TitleBody.ok]
theorem ok_serial_iff (p : SerialPart) : (TitleBody.serial p).ok = true ↔ p.wf ∧ p.inBounds := by
  unfold TitleBody.ok
  exact decide_eq_true_iff
theorem ok_of_wf {r : TitleRecord} (h : r.wf) : r.body.ok = true := by
  obtain ⟨-, -, -, -, -, -, -, ok⟩ := h
  exact ok
/-- R16, R17: a record may take another status, a last arrival day and a part of its kind within its bounds. -/
theorem record_wf_update {r : TitleRecord} {status : TitleStatus} {day : Option Nat} {body : TitleBody} (h : r.wf)
    (kind : TitleRecord.kind { r with status := status, lastArrival := day, body := body } = r.kind) (hday : dayWf day)
    (ok : body.ok = true) : TitleRecord.wf { r with status := status, lastArrival := day, body := body } := by
  obtain ⟨q_low, q_high, plan, allows, publisher, announced, -, -⟩ := h
  exact ⟨q_low, q_high, plan, kind ▸ allows, publisher, announced, hday, ok⟩
theorem record_wf_monograph {r : TitleRecord} {m m' : MonographPart} {status : TitleStatus} {day : Option Nat} (h : r.wf)
    (body : r.body = .monograph m) (hday : dayWf day) (ok : (TitleBody.monograph m').ok = true) :
    TitleRecord.wf { r with status := status, lastArrival := day, body := .monograph m' } :=
  record_wf_update h (kind_monograph body).symm hday ok
theorem record_wf_serial {r : TitleRecord} {p p' : SerialPart} {status : TitleStatus} {day : Option Nat} (h : r.wf)
    (body : r.body = .serial p) (hday : dayWf day) (ok : (TitleBody.serial p').ok = true) :
    TitleRecord.wf { r with status := status, lastArrival := day, body := .serial p' } :=
  record_wf_update h (kind_serial body).symm hday ok
/-- R149: the claim state is no bounded field. -/
theorem record_wf_claim {r : TitleRecord} {m : MonographPart} (c : ClaimState) (h : r.wf) (body : r.body = .monograph m) :
    TitleRecord.wf { r with body := .monograph { m with claim := c } } := by
  obtain ⟨-, -, -, -, -, -, arrival, ok⟩ := id h
  rw [body] at ok
  exact record_wf_monograph h body arrival ok

/-- R19: the lowest free slot is one of the table's. -/
theorem lowestFree_lt {t : TitleTable} {n : Nat} (h : t.lowestFree = some n) : n < Config.titleSlots := by
  unfold TitleTable.lowestFree at h
  dsimp only at h
  split at h
  · next lt => cases h; exact lt
  · cases h

/-! Commands of the Title Table. -/

/-- R16: a plan read is as long as the list given. -/
theorem planOf_length {cs : List ItemClass} {plan : List Chute} (h : planOf cs = some plan) : plan.length = cs.length := by
  induction cs generalizing plan with
  | nil => cases h; rfl
  | cons c t ih =>
    rw [planOf] at h
    split at h
    · next rest => cases h; simp [ih rest]
    · cases h
/-- R24: the new part of an accepted serial is within its bounds. -/
theorem newSerial_ok {g : SerialGiven} (h : SerialGiven.inRange g = true) : (TitleBody.serial (newSerial g)).ok = true := by
  simp only [SerialGiven.inRange, decide_eq_true_eq] at h
  obtain ⟨p, first, gap, lag⟩ := h
  have vb := g.vb.isLt
  refine (ok_serial_iff _).2 ⟨wf_of_clear rfl rfl, p, by simp only [newSerial]; omega, first, ?_, ?_⟩
  · cases given : g.gapLag <;> simp_all [newSerial]
  · cases given : g.dayLag <;> simp_all [newSerial]
/-- R23, R24: a record announced within the ranges is within its bounds. -/
theorem newTitle_wf {f : AnnounceFields} {k : Key} {day : Nat} (h : AnnounceFields.inRange f k = true) (hday : day ≤ 65535) :
    TitleRecord.wf (newTitle f k day) := by
  simp only [AnnounceFields.inRange, Bool.and_eq_true, decide_eq_true_eq] at h
  obtain ⟨⟨⟨⟨⟨allows, q_low, q_high⟩, len⟩, plan⟩, publisher⟩, parts⟩ := h
  obtain ⟨plan', hplan⟩ := Option.isSome_iff_exists.1 plan
  have kind_ok : (newTitle f k day).kind = f.kind ∧ (newTitle f k day).body.ok = true := by
    split at parts
    · next kind serial =>
      refine ⟨by simp [TitleRecord.kind, newTitle, serial, kind], ?_⟩
      have due : dayWf (f.due.map (·.toNat)) := by
        intro x hx
        obtain ⟨d, -, rfl⟩ := Option.map_eq_some_iff.1 hx
        have := d.isLt
        omega
      simp only [newTitle, serial]
      exact (ok_monograph_iff _).2 ⟨Nat.zero_le _, due⟩
    · cases parts
    · cases parts
    · next g kind serial =>
      rw [Bool.and_eq_true] at parts
      refine ⟨by simp [TitleRecord.kind, newTitle, serial, kind], ?_⟩
      simp only [newTitle, serial]
      exact newSerial_ok parts.2
  exact ⟨q_low, q_high, by simp [newTitle, hplan, planOf_length hplan, len], kind_ok.1 ▸ allows, publisher, hday,
    dayWf_none, kind_ok.2⟩

/-- R9: a command that names a title touches the table only where its key is valid. -/
theorem withKey_keeps {s : State} (k : KeyText) {act : Key → State × ReplyBody} (h : ∀ v, s.table.keeps (act v).1.table) :
    s.table.keeps (s.withKey k act).1.table := by
  unfold State.withKey
  split
  · exact h _
  · exact keeps_refl _
theorem runAnnounceTitle_keeps (f : AnnounceFields) (s : State) : s.table.keeps (s.runAnnounceTitle f).1.table := by
  refine withKey_keeps _ fun k => ?_
  dsimp only
  split
  · exact keeps_refl _
  · next accepted =>
    have new (wf : s.table.recordsWf) : TitleRecord.wf (newTitle f k s.table.today) :=
      newTitle_wf (by simpa using accepted) (today_le wf.1)
    split
    · next n old found =>
      obtain ⟨mem, key⟩ := lookup_mem found
      simp only [withClaims_fields, putRecord_fields]
      exact fun wf => keeps_of_puts (place_puts_of_mem wf mem key.symm) new wf
    · next absent =>
      split
      · next n free =>
        simp only [withTable_fields]
        have keys : ∀ e ∈ s.table.slots, e.2.key ≠ k := by
          simpa [TitleTable.lookup, List.find?_eq_none] using absent
        exact fun wf => keeps_of_puts (place_puts wf (lowestFree_lt free) fun e he _ => keys e he) new wf
      · exact keeps_refl _

/-- R26: the changes of an amend within the ranges keep a record within its bounds. -/
theorem change_wf {f : AmendFields} {r : TitleRecord} (ranges : AmendFields.inRange f = true) (applies : AmendFields.applies f r = true)
    (h : r.wf) : TitleRecord.wf (AmendFields.change f r) := by
  obtain ⟨q_low, q_high, plan, allows, publisher, announced, arrival, ok⟩ := h
  simp only [AmendFields.inRange, AmendFields.applies, Bool.and_eq_true, decide_eq_true_eq] at ranges applies
  obtain ⟨⟨q_ok, plan_ok⟩, publisher_ok, gap_ok, lag_ok⟩ := ranges
  obtain ⟨-, plan_len⟩ := applies
  have q' : 1 ≤ (AmendFields.change f r).q ∧ (AmendFields.change f r).q ≤ 4 := by
    cases hq : f.q with
    | none => simp [AmendFields.change, hq, q_low, q_high]
    | some q => simp_all [AmendFields.change]
  have plan' : (AmendFields.change f r).plan.length = (AmendFields.change f r).q := by
    cases hp : f.plan with
    | none =>
      have no_q : f.q = none := by
        cases hq : f.q <;> simp_all
      simp [AmendFields.change, hp, no_q, plan]
    | some cs =>
      obtain ⟨plan', hplan⟩ : ∃ plan', planOf cs = some plan' := Option.isSome_iff_exists.1 (by simpa [hp] using plan_ok)
      have len : cs.length = (f.q.map (·.toNat)).getD r.q := by simpa [hp] using plan_len
      simp [AmendFields.change, hp, hplan, planOf_length hplan, len]
  have publisher' : (AmendFields.change f r).publisher ≤ Config.maxPublisher := by
    cases hp : f.publisher <;> simp_all [AmendFields.change]
  have body' : (AmendFields.change f r).kind = r.kind ∧ (AmendFields.change f r).body.ok = true := by
    cases body : r.body with
    | monograph m =>
      rw [body] at ok
      refine ⟨by simp [TitleRecord.kind, AmendFields.change, body], ?_⟩
      obtain ⟨copies, due⟩ := (ok_monograph_iff m).1 ok
      simp only [AmendFields.change, body]
      refine (ok_monograph_iff _).2 ⟨copies, ?_⟩
      cases f.due with
      | keep => exact due
      | set d => intro x hx; cases hx; have := d.isLt; omega
      | remove => intro x hx; cases hx
    | serial p =>
      rw [body] at ok
      refine ⟨by simp [TitleRecord.kind, AmendFields.change, body], ?_⟩
      obtain ⟨wf, pp, vb, first, gap, lag⟩ := (ok_serial_iff p).1 ok
      simp only [AmendFields.change, body]
      refine (ok_serial_iff _).2 ⟨wf, pp, vb, first, ?_, ?_⟩
      · cases given : f.gapLag <;> simp_all
      · cases given : f.dayLag <;> simp_all
  exact ⟨q'.1, q'.2, plan', body'.1 ▸ allows, publisher', announced, arrival, body'.2⟩
/-- R27, R28: settling an amended record puts it in its slot, with its key and within its bounds. -/
theorem settleAmended_table (s : State) (n : Nat) (r : TitleRecord) :
    (s.settleAmended n r).1.table = s.table.place n (s.settleAmended n r).2 ∧ (s.settleAmended n r).2.key = r.key ∧
    (r.wf → (s.settleAmended n r).2.wf) := by
  unfold State.settleAmended
  split
  · next m body =>
    have claimed : (s.satisfyMonograph r.key m.claim).1.table = s.table := by
      unfold State.satisfyMonograph
      split <;> simp
    have status_wf (st : TitleStatus) (h : r.wf) : TitleRecord.wf { r with status := st } := by
      obtain ⟨-, -, -, -, -, -, arrival, ok⟩ := id h
      exact record_wf_update h rfl arrival ok
    split
    · split
      · refine ⟨by simp [claimed], rfl, fun h => ?_⟩
        exact record_wf_claim .none (status_wf .complete h) body
      · exact ⟨by simp, rfl, id⟩
    · exact ⟨by simp, rfl, status_wf .expected⟩
  · next p body =>
    refine ⟨by simp, rfl, fun h => ?_⟩
    obtain ⟨q_low, -, -, -, -, -, arrival, ok⟩ := id h
    rw [body] at ok
    obtain ⟨wf, bounds⟩ := (ok_serial_iff p).1 ok
    exact record_wf_serial h body arrival
      ((ok_serial_iff _).2 ⟨wf_advance q_low wf, inBounds_of_moved (moved_advance p r.q) bounds⟩)
theorem runAmendTitle_keeps (f : AmendFields) (s : State) : s.table.keeps (s.runAmendTitle f).1.table := by
  refine withKey_keeps _ fun k => ?_
  dsimp only
  split
  · exact keeps_refl _
  · next ranges =>
    split
    · exact keeps_refl _
    · next n r found =>
      split
      · exact keeps_refl _
      · split
        · exact keeps_refl _
        · next applies =>
          obtain ⟨mem, -⟩ := lookup_mem found
          obtain ⟨table, key, wf⟩ := settleAmended_table s n (AmendFields.change f r)
          rw [table]
          exact keeps_place mem key fun _ h => wf (change_wf (by simpa using ranges) (by simpa using applies) h)

/-- R29: a tombstone keeps the fields of its record. -/
theorem tombstone_wf {r : TitleRecord} (h : r.wf) : r.tombstone.wf := by
  obtain ⟨-, -, -, -, -, -, arrival, ok⟩ := id h
  unfold TitleRecord.tombstone
  split
  · next m body => exact record_wf_monograph h body arrival (by rw [body] at ok; exact ok)
  · next p body => exact record_wf_serial h body arrival (by rw [body] at ok; exact ok)
theorem runWithdrawTitle_keeps (kt : KeyText) (s : State) : s.table.keeps (s.runWithdrawTitle kt).1.table := by
  refine withKey_keeps _ fun k => ?_
  split
  · exact keeps_refl _
  · next n r found =>
    split
    · exact keeps_refl _
    · simp only [withClaims_fields, putRecord_fields]
      exact keeps_place (lookup_mem found).1 rfl fun _ => tombstone_wf
/-- R57: a window repositioned is clear. -/
theorem runSetRun_keeps (f : SetRunFields) (s : State) : s.table.keeps (s.runSetRun f).1.table := by
  refine withKey_keeps _ fun k => ?_
  split
  · exact keeps_refl _
  · split
    · exact keeps_refl _
    · next n r found =>
      split
      · exact keeps_refl _
      · split
        · exact keeps_refl _
        · next p body =>
          refine keeps_place (lookup_mem found).1 rfl fun _ h => ?_
          obtain ⟨-, -, -, -, -, -, arrival, ok⟩ := id h
          rw [body] at ok
          obtain ⟨-, bounds⟩ := (ok_serial_iff p).1 ok
          exact record_wf_serial h body arrival ((ok_serial_iff _).2 ⟨wf_of_clear rfl rfl, bounds⟩)

end Sys2Proof.Machine
end

section
/-! Every step keeps the Title Table (R16, R17, R19, R33, R42, R43): the arrivals, the claims taken, the examinations, and each command. -/

namespace Sys2Proof.Machine

/-! Arrivals. -/

/-- R33: a committed copy leaves a MONOGRAPH record within its bounds. -/
theorem commitMonograph_keeps {s : State} {slot : Nat} {r : TitleRecord} {m : MonographPart} (hm : (slot, r) ∈ s.table.slots)
    (body : r.body = .monograph m) : s.table.keeps (s.commitMonograph slot r m).1.table := by
  have claimed : (s.satisfyMonograph r.key m.claim).1.table = s.table := by
    unfold State.satisfyMonograph
    split <;> simp
  have counted (status : TitleStatus) (claim : ClaimState) (day : dayWf s.table.day) (h : r.wf) : TitleRecord.wf
      { r with
        status := status, lastArrival := some s.table.today
        body := .monograph { m with copies := min (m.copies + 1) Config.copiesMax, claim := claim } } := by
    have ok := ok_of_wf h
    rw [body] at ok
    refine record_wf_monograph h body ?_ ((ok_monograph_iff _).2 ⟨Nat.min_le_right _ _, ((ok_monograph_iff m).1 ok).2⟩)
    rintro x ⟨⟩
    exact today_le day
  unfold State.commitMonograph
  dsimp only
  split
  · simp only [putRecord_fields, claimed]
    exact keeps_place hm rfl (counted .complete .none)
  · simp only [putRecord_fields]
    exact keeps_place hm rfl (counted r.status m.claim)
theorem commitSerial_keeps {s : State} {slot : Nat} {r : TitleRecord} {p : SerialPart} (hm : (slot, r) ∈ s.table.slots)
    (body : r.body = .serial p) (n span : Nat) : s.table.keeps (s.commitSerial slot r p n span).1.table := by
  obtain ⟨table, moves, wf⟩ := commit_part ⟨s, p, .none⟩ r.key r.q n span
  simp only [State.commitSerial, putRecord_fields, table]
  refine keeps_place hm rfl fun day h => ?_
  have q_low := h.1
  have ok := ok_of_wf h
  rw [body] at ok
  obtain ⟨wf_p, bounds⟩ := (ok_serial_iff p).1 ok
  refine record_wf_serial h body ?_ ((ok_serial_iff _).2 ⟨wf q_low wf_p, inBounds_of_moved moves bounds⟩)
  rintro x ⟨⟩
  exact today_le day
theorem commitIf_keeps {s : State} {normal available : Bool} {a : Answer} {commit : State × Indications}
    (h : s.table.keeps commit.1.table) : s.table.keeps (s.commitIf normal available a commit).1.table := by
  unfold State.commitIf
  split
  · exact h
  · exact keeps_refl _
/-- R32: the decision unit's request reaches the table by its commit alone. -/
theorem arrival_keeps (s : State) (k : Key) (e : Option Enumeration) (normal available : Bool) :
    s.table.keeps (s.arrival k e normal available).1.table := by
  unfold State.arrival
  split
  · exact keeps_refl _
  · next slot r found =>
    have mem := (lookup_mem found).1
    split
    · exact keeps_refl _
    · split
      · next m body => exact commitIf_keeps (commitMonograph_keeps mem body)
      · next p body =>
        unfold State.serialArrival
        split
        · exact keeps_refl _
        · dsimp only
          split
          · exact keeps_refl _
          · exact commitIf_keeps (commitSerial_keeps mem body _ _)
theorem identify_keeps (s : State) (l : LaneId) (is : List Ident) : s.table.keeps (s.identify l is).1.table := by
  unfold State.identify
  split
  · exact keeps_refl _
  · exact keeps_refl _
  · unfold State.decideKey
    generalize (if decide ((s.lane l).mode = .normal) = true then s.decision.available else true) = available
    dsimp only
    split <;> exact arrival_keeps s _ _ _ available
theorem decideItem_keeps (s : State) (l : LaneId) (i : Item) : s.table.keeps (s.decideItem l i).table := by
  obtain ⟨-, table, -⟩ := decideItem_fields s l i _ rfl
  rw [table]
  exact identify_keeps s l _
theorem endItemReading_keeps (s : State) (l : LaneId) (sq : Seq) (o : Option Observation) :
    s.table.keeps (s.endItemReading l sq o).table := by
  have ended (u : State) (h : s.agrees u) : s.table.keeps (State.table (match (u.lane l).readingItem with
      | some i => if (u.lane l).mode = .test then u.testItemEnd l i else u.decideItem l i
      | none => u)) := by
    refine keeps_trans (keeps_of_agrees h) ?_
    split
    · split
      · exact keeps_of_agrees (agrees_testItemEnd u l _)
      · exact decideItem_keeps u l _
    · exact keeps_refl _
  unfold State.endItemReading
  split
  · cases o with
    | none => exact ended s (agrees_refl s)
    | some o => exact ended _ (agrees_joinReading s l o)
  · exact keeps_of_agrees (agrees_misdirected s l _ _)

/-! Claims taken, and the table engine. -/

/-- R153: a record whose claim is taken keeps its other fields. -/
theorem markTaken_keeps (s : State) (e : ClaimEntry) : s.table.keeps (s.markTaken e).table := by
  unfold State.markTaken
  split
  · next n r _ found =>
    split
    · next m body => exact keeps_place (lookup_mem found).1 rfl fun _ h => record_wf_claim .taken h body
    · exact keeps_refl _
  · exact keeps_refl _
theorem runTakeClaims_keeps (n : Half) (s : State) : s.table.keeps (s.runTakeClaims n).1.table := by
  unfold State.runTakeClaims
  split
  · exact keeps_refl _
  · simp only [withClaims_fields]
    exact foldl_keeps (P := fun u : State => s.table.keeps u.table) (fun u e h => keeps_trans h (markTaken_keeps u e)) _ s
      (keeps_refl _)
/-- R152: the raises of an overdue serial flag cells of its window. -/
theorem sweepSerial_keeps {s : State} {e : EngineContext} {r : TitleRecord} {p : SerialPart}
    (hm : (e.current, r) ∈ s.table.slots) (body : r.body = .serial p) : s.table.keeps (s.sweepSerial e r p).1.table := by
  unfold State.sweepSerial
  dsimp only
  obtain ⟨table, moves, wf⟩ := foldl_keeps (f := sweepRaise r.key r.q)
    (P := fun a : ArrivalStep × EngineContext =>
      a.1.state.table = s.table ∧ p.moved a.1.part ∧ (p.wf → a.1.part.wf))
    (fun a y ⟨table, moves, wf⟩ => by
      obtain ⟨same, moves', -⟩ := raise_leads none a.1 r.key r.q .overdue y
      refine ⟨same.trans table, moved_trans moves moves', fun h => ?_⟩
      simp only [sweepRaise, ArrivalStep.raise]
      split
      · exact wf_flagRange _ _ (wf h)
      · exact wf h)
    (p.overdueRuns r.q) (⟨s, p, .none⟩, e) ⟨rfl, moved_refl p, id⟩
  simp only [putRecord_fields, table]
  refine keeps_place hm rfl fun _ h => ?_
  obtain ⟨-, -, -, -, -, -, arrival, ok⟩ := id h
  rw [body] at ok
  obtain ⟨wf_p, bounds⟩ := (ok_serial_iff p).1 ok
  exact record_wf_serial h body arrival ((ok_serial_iff _).2 ⟨wf wf_p, inBounds_of_moved moves bounds⟩)
theorem examineSweep_keeps (s : State) (e : EngineContext) : s.table.keeps (s.examineSweep e).table := by
  unfold State.examineSweep
  split
  · exact keeps_of_agrees (agrees_goOn s _)
  · next r held =>
    have mem := at_mem held
    refine keeps_trans ?_ (keeps_of_agrees (agrees_goOn _ _))
    split
    · next m body =>
      split
      · simp only [State.sweepMonograph, putRecord_fields, withClaims_fields]
        exact keeps_place mem rfl fun _ h => record_wf_claim _ h body
      · exact keeps_refl _
    · next p body =>
      split
      · exact sweepSerial_keeps mem body
      · exact keeps_refl _
theorem examinePurge_keeps (s : State) (e : EngineContext) : s.table.keeps (s.examinePurge e).table := by
  unfold State.examinePurge
  split
  · exact keeps_of_agrees (agrees_goOn s _)
  · split
    · refine keeps_trans ?_ (keeps_of_agrees (agrees_goOn _ _))
      rw [(withTable_fields s _).2.1]
      exact keeps_free _ _
    · exact keeps_of_agrees (agrees_goOn s _)
theorem agrees_examineFind (s : State) (e : EngineContext) (f : FindFields) : s.agrees (s.examineFind e f) := by
  unfold State.examineFind
  split
  · exact agrees_goOn s _
  · exact agrees_ite _ (agrees_complete s _ _ _ _) (agrees_goOn s _)

/-! Commands. -/

/-- R182: a frame reaches the account by what is run for it alone. -/
theorem takeFrame_next {s t : State} {code tag : Byte} {run : State → State × ReplyBody}
    (h : s.takeFrame code tag run = .next t) : s.agrees t ∨ ∃ u, s.agrees u ∧ (run u).1.agrees t := by
  unfold State.takeFrame at h
  split at h
  · cases h
    exact .inl ⟨rfl, rfl, rfl, rfl⟩
  · cases h
    exact .inr ⟨s.onLink fun c => { c with framesTaken := bump c.framesTaken }, ⟨rfl, rfl, rfl, rfl⟩,
      agrees_trans ⟨rfl, rfl, rfl, rfl⟩ (agrees_grant _)⟩
/-- R183: a host command reaches the account by what its block does with its fields alone. -/
theorem command_next {α : Type} {s t : State} {code tag : Byte} {body : Body α} {run : α → State → State × ReplyBody}
    (h : s.command code tag body run = .next t) :
    s.agrees t ∨ ∃ a u, s.agrees u ∧ (run a u).1.agrees t := by
  obtain dropped | ⟨u, to_u, runs⟩ := takeFrame_next h
  · exact .inl dropped
  · cases body with
    | malformed => exact .inl (agrees_trans to_u runs)
    | fields a => exact .inr ⟨a, u, to_u, runs⟩
theorem command_keeps {α : Type} {s t : State} {code tag : Byte} {body : Body α} {run : α → State → State × ReplyBody}
    (h : s.command code tag body run = .next t) (block : ∀ a (u : State), u.table.keeps (run a u).1.table) :
    s.table.keeps t.table := by
  obtain stands | ⟨a, u, to_u, runs⟩ := command_next h
  · exact keeps_of_agrees stands
  · exact keeps_trans (keeps_of_agrees to_u) (keeps_trans (block a u) (keeps_of_agrees runs))
/-- An event whose meaning keeps the table keeps it when the line is granted. -/
theorem done_keeps {s t u : State} (h : u.done = .next t) (keeps : s.table.keeps u.table) : s.table.keeps t.table := by
  cases h
  exact keeps_trans keeps (keeps_of_agrees (agrees_grant u))
theorem receive_done_keeps {s t : State} {l : LaneId} {r : StationRecord} {act : State → State}
    (h : (s.receive l r act).done = .next t) (acts : ∀ u : State, u.table.keeps (act u).table) : s.table.keeps t.table := by
  refine done_keeps h ?_
  obtain stays | ⟨u, to_u, acted⟩ := agrees_receive s l r act
  · exact keeps_of_agrees stays
  · exact keeps_trans (keeps_of_agrees to_u) (keeps_trans (acts u) (keeps_of_agrees acted))
/-- A command that names a lane touches the table only where its lane is one. -/
theorem withLane_table {s : State} (b : Byte) {act : LaneId → State × ReplyBody} (h : ∀ l, (act l).1.table = s.table) :
    (s.withLane b act).1.table = s.table := by
  unfold State.withLane
  split
  · exact h _
  · rfl
theorem accept_table (s : State) (op : Operation) (start : Nat) : (s.accept op start).1.table = s.table := by
  unfold State.accept
  split
  · rfl
  · split
    · rfl
    · split
      · rfl
      · exact (agrees_goOn _ _).2.1

theorem runSetNotices_table (ps : List EnablePair) (s : State) : (s.runSetNotices ps).1.table = s.table := by
  unfold State.runSetNotices
  split <;> rfl
theorem runAbort_table (s : State) : s.runAbort.1.table = s.table := by
  unfold State.runAbort
  split <;> rfl
theorem runConfigureLane_table (f : ConfigureFields) (s : State) : (s.runConfigureLane f).1.table = s.table := by
  refine withLane_table _ fun l => ?_
  dsimp only
  split
  · rfl
  · split <;> rfl
theorem runEnableLane_table (b : Byte) (s : State) : (s.runEnableLane b).1.table = s.table := by
  refine withLane_table _ fun l => ?_
  dsimp only
  split
  · rfl
  · split <;> simp
theorem runDisableLane_table (b : Byte) (s : State) : (s.runDisableLane b).1.table = s.table := by
  refine withLane_table _ fun l => ?_
  dsimp only
  split
  · rfl
  · exact (agrees_disableLane s l _).2.1
theorem runSetLaneMode_table (f : LaneModeFields) (s : State) : (s.runSetLaneMode f).1.table = s.table := by
  refine withLane_table _ fun l => ?_
  split <;> rfl
theorem runInjectError_table (b : Byte) (s : State) : (s.runInjectError b).1.table = s.table := by
  refine withLane_table _ fun l => ?_
  split <;> rfl
theorem runCloseConsignment_table (b : Byte) (s : State) : (s.runCloseConsignment b).1.table = s.table := by
  refine withLane_table _ fun l => ?_
  split
  · rfl
  · simp
theorem runSetAccessionBase_table (b : Quad) (s : State) : (s.runSetAccessionBase b).1.table = s.table := by
  unfold State.runSetAccessionBase
  split
  · rfl
  · split <;> rfl
theorem runSetSteering_table (f : SteeringFields) (s : State) : (s.runSetSteering f).1.table = s.table := by
  unfold State.runSetSteering
  split
  · rfl
  · split <;> rfl
theorem runListTitles_table (f : ListFields) (s : State) : (s.runListTitles f).1.table = s.table := by
  unfold State.runListTitles
  split <;> rfl
theorem runReadTitle_keeps (k : KeyText) (s : State) : s.table.keeps (s.runReadTitle k).1.table := by
  refine withKey_keeps _ fun v => ?_
  split <;> exact keeps_refl _

/-- R16 to R19, R33, R42, R43: what each of the 60 commands leaves of the Title Table is in its form again. -/
theorem exec_keeps {c : Instr} {s t : State} (h : exec c s = .next t) : s.table.keeps t.table := by
  cases c with
  | powerOn =>
    refine done_keeps h ?_
    rw [(ask_fields _ _ _ _ _).2.1]
    exact keeps_reset _
  | clear =>
    simp only [exec, execClear] at h
    refine command_keeps h fun _ u => ?_
    rw [(ask_fields _ _ _ _ _).2.1]
    exact keeps_reset _
  | announceTitle =>
    simp only [exec, execAnnounceTitle] at h
    exact command_keeps h runAnnounceTitle_keeps
  | amendTitle =>
    simp only [exec, execAmendTitle] at h
    exact command_keeps h runAmendTitle_keeps
  | withdrawTitle =>
    simp only [exec, execWithdrawTitle] at h
    exact command_keeps h runWithdrawTitle_keeps
  | readTitle =>
    simp only [exec, execReadTitle] at h
    exact command_keeps h runReadTitle_keeps
  | setDay =>
    simp only [exec, execSetDay] at h
    exact command_keeps h fun d u => keeps_day u.table d
  | setRun =>
    simp only [exec, execSetRun] at h
    exact command_keeps h runSetRun_keeps
  | takeClaims =>
    simp only [exec, execTakeClaims] at h
    exact command_keeps h runTakeClaims_keeps
  | itemEnd => exact receive_done_keeps h fun u => endItemReading_keeps u _ _ _
  | sweepExamination =>
    simp only [exec, execSweepExamination] at h
    split at h
    · split at h
      · exact done_keeps h (examineSweep_keeps s _)
      · exact done_keeps h (keeps_refl _)
      · exact done_keeps h (keeps_refl _)
    · exact done_keeps h (keeps_refl _)
  | purgeExamination =>
    simp only [exec, execPurgeExamination] at h
    split at h
    · split at h
      · exact done_keeps h (examinePurge_keeps s _)
      · exact done_keeps h (keeps_refl _)
      · exact done_keeps h (keeps_refl _)
    · exact done_keeps h (keeps_refl _)
  | findExamination =>
    simp only [exec, execFindExamination] at h
    split at h
    · split at h
      · exact done_keeps h (keeps_of_agrees (agrees_examineFind s _ _))
      · exact done_keeps h (keeps_refl _)
      · exact done_keeps h (keeps_refl _)
    · exact done_keeps h (keeps_refl _)
  | identify | readCounters | setReportHold | holdReports | releaseReports | flushReports | setGrace | readAccession | readClaimStatus
  | engineStatus =>
    simp only [exec, execIdentify, execReadCounters, execSetReportHold, execHoldReports, execReleaseReports,
      execFlushReports, execSetGrace, execReadAccession, execReadClaimStatus, execEngineStatus] at h
    exact command_keeps h fun _ _ => keeps_refl _
  | setNotices =>
    simp only [exec, execSetNotices] at h
    exact command_keeps h fun a u => keeps_of_eq (runSetNotices_table a u)
  | restart =>
    simp only [exec, execRestart] at h
    exact command_keeps h fun _ u => keeps_of_agrees (agrees_runRestart u)
  | listTitles =>
    simp only [exec, execListTitles] at h
    exact command_keeps h fun a u => keeps_of_eq (runListTitles_table a u)
  | configureLane =>
    simp only [exec, execConfigureLane] at h
    exact command_keeps h fun a u => keeps_of_eq (runConfigureLane_table a u)
  | enableLane =>
    simp only [exec, execEnableLane] at h
    exact command_keeps h fun a u => keeps_of_eq (runEnableLane_table a u)
  | disableLane =>
    simp only [exec, execDisableLane] at h
    exact command_keeps h fun a u => keeps_of_eq (runDisableLane_table a u)
  | setLaneMode =>
    simp only [exec, execSetLaneMode] at h
    exact command_keeps h fun a u => keeps_of_eq (runSetLaneMode_table a u)
  | injectError =>
    simp only [exec, execInjectError] at h
    exact command_keeps h fun a u => keeps_of_eq (runInjectError_table a u)
  | clearDiverterFault =>
    simp only [exec, execClearDiverterFault] at h
    exact command_keeps h fun a u => keeps_of_eq (withLane_table a fun l => (agrees_clearFault u l).2.1)
  | readLane | readTest | readConsignment =>
    simp only [exec, execReadLane, execReadTest, execReadConsignment] at h
    exact command_keeps h fun a u => keeps_of_eq (withLane_table a fun _ => rfl)
  | closeConsignment =>
    simp only [exec, execCloseConsignment] at h
    exact command_keeps h fun a u => keeps_of_eq (runCloseConsignment_table a u)
  | setAccessionBase =>
    simp only [exec, execSetAccessionBase] at h
    exact command_keeps h fun a u => keeps_of_eq (runSetAccessionBase_table a u)
  | setSteering =>
    simp only [exec, execSetSteering] at h
    exact command_keeps h fun a u => keeps_of_eq (runSetSteering_table a u)
  | abort =>
    simp only [exec, execAbort] at h
    exact command_keeps h fun _ u => keeps_of_eq (runAbort_table u)
  | sweep | purge =>
    simp only [exec, execSweep, execPurge] at h
    exact command_keeps h fun _ u => keeps_of_eq (accept_table u _ _)
  | find =>
    simp only [exec, execFind] at h
    refine command_keeps h fun f u => keeps_of_eq ?_
    split
    · rfl
    · exact accept_table u _ _
  | unknownCommand code tag =>
    simp only [exec, execUnknownCommand] at h
    split at h
    · exact done_keeps h (keeps_refl _)
    · obtain dropped | ⟨u, to_u, runs⟩ := takeFrame_next h
      · exact keeps_of_agrees dropped
      · exact keeps_of_agrees (agrees_trans to_u (agrees_trans ⟨rfl, rfl, rfl, rfl⟩ runs))
  | hostLengthError | hostCrcError | laneRecordSent => exact done_keeps h (keeps_refl _)
  | commandDropped =>
    simp only [exec, execCommandDropped] at h
    split at h <;> exact done_keeps h (keeps_refl _)
  | replySent =>
    simp only [exec, execReplySent] at h
    split at h <;> exact done_keeps h (keeps_refl _)
  | batchSent =>
    simp only [exec, execBatchSent] at h
    split at h
    · exact done_keeps h (keeps_of_eq (settleReport_fields _).2.1)
    · exact done_keeps h (keeps_refl _)
    · exact done_keeps h (keeps_refl _)
  | holdTimerExpiry =>
    simp only [exec, execHoldTimerExpiry] at h
    split at h <;> exact done_keeps h (keeps_refl _)
  | noReportSpaceNews l => exact done_keeps h (keeps_of_agrees (agrees_takeNews s l))
  | linkCheckFailure l | recordNotWellFormed l =>
    exact done_keeps h (keeps_of_agrees (agrees_ite _ (agrees_refl s) (agrees_countLinkError s l)))
  | heartbeat l => exact receive_done_keeps h fun u => keeps_of_agrees (agrees_noteBelt u l _ _)
  | itemBegin l sq => exact receive_done_keeps h fun u => keeps_of_agrees (agrees_beginItem u l sq)
  | observation l sq o => exact receive_done_keeps h fun u => keeps_of_agrees (agrees_observe u l sq o)
  | atGate l sq => exact receive_done_keeps h fun u => keeps_of_agrees (agrees_gate u l sq)
  | confirm l sq x => exact receive_done_keeps h fun u => keeps_of_agrees (agrees_confirmItem u l sq x)
  | silenceTimerExpiry l => exact done_keeps h (keeps_of_agrees (agrees_silenceExpired s l))
  | confirmTimerExpiry l =>
    simp only [exec, execConfirmTimerExpiry] at h
    split at h
    · exact done_keeps h (keeps_refl _)
    · exact done_keeps h (keeps_of_agrees (agrees_trans (agrees_closeWindow s l _) (agrees_feedTest _ l)))

/-- Settles O55: a step runs one command, and every command keeps the table and its records. -/
theorem titleTableIsKept : Obligations.TitleTableIsKept := by
  intro s t wf h
  unfold step at h
  split at h
  · cases h
    exact ⟨wf, id⟩
  · next c rest _ => exact exec_keeps (s := { s with pending := rest }) h wf

end Sys2Proof.Machine
end

section
/-! The commands of the Title Table (R19, R20, R23 to R31): what each answers and leaves, case by case of its checks. -/

namespace Sys2Proof.Machine

/-! Frames counted beside the account. -/

/-- R190: one more frame taken. -/
def LinkCounters.countFrame (c : LinkCounters) : LinkCounters := { c with framesTaken := bump c.framesTaken }

/-- R182: a command is taken as its block runs with one frame more counted. -/
theorem takes_of_block {α : Type} {c : Instr} {s u : State} {code tag : Byte} {a : α} {run : α → State → State × ReplyBody}
    {b : ReplyBody} (hc : exec c s = s.command code tag (.fields a) run) (hs : s.listens)
    (hr : run a (s.onLink .countFrame) = (u.onLink .countFrame, b)) : Takes c s (replyCode code) tag b u :=
  takes_of_command hc rfl hs hr
/-- A notice asked and a frame counted do not meet. -/
theorem deviceNotice_countFrame (s : State) (c : NoticeCondition) (e : Edge) (d : Detail) :
    (s.onLink .countFrame).deviceNotice c e d = (s.deviceNotice c e d).onLink .countFrame := by
  simp only [State.deviceNotice, State.ask, onLink_fields]
  split
  · split <;> rfl
  · rfl
theorem withClaims_countFrame (s : State) (c : ClaimList) :
    (s.onLink .countFrame).withClaims c = (s.withClaims c).onLink .countFrame := by
  simp only [State.withClaims, onLink_fields]
  split
  · rfl
  · exact deviceNotice_countFrame { s with claims := c } _ _ _
theorem withTable_countFrame (s : State) (t : TitleTable) :
    (s.onLink .countFrame).withTable t = (s.withTable t).onLink .countFrame := by
  simp only [State.withTable, onLink_fields]
  split
  · rfl
  · exact deviceNotice_countFrame { s with table := t } _ _ _
/-- R156: the edge a change of the claim list may give is stamped with the day, which a record put in its slot leaves alone. -/
theorem withClaims_putRecord (s : State) (c : ClaimList) (n : Nat) (r : TitleRecord) :
    (s.withClaims c).putRecord n r = (s.putRecord n r).withClaims c := by
  simp only [State.withClaims, State.deviceNotice, State.ask, putRecord_fields]
  split
  · rfl
  · split
    · split <;> rfl
    · rfl

theorem withKey_some {k : KeyText} {v : Key} (h : keyOf k = some v) (s : State) (act : Key → State × ReplyBody) :
    s.withKey k act = act v := by simp only [State.withKey, h]

/-! READ TITLE and LIST TITLES. -/

theorem exec_readTitle (tag : Byte) (body : Body KeyText) (s : State) :
    exec (.readTitle tag body) s = s.command 0x13#8 tag body fun k s => s.runReadTitle k := rfl
theorem exec_listTitles (tag : Byte) (body : Body ListFields) (s : State) :
    exec (.listTitles tag body) s = s.command 0x14#8 tag body fun f s => s.runListTitles f := rfl

theorem runReadTitle_absent {kt : KeyText} {k : Key} {s : State} (h : s.lacks kt k) :
    s.runReadTitle kt = (s, .refused .notFound .none) := by
  obtain ⟨key, absent⟩ := lookup_of_lacks h
  simp only [State.runReadTitle, withKey_some key, absent, refuse]
theorem runReadTitle_found {kt : KeyText} {n : Nat} {r : TitleRecord} {s : State} (h : s.finds kt n r) :
    s.runReadTitle kt = (s, .done (.title n r)) := by
  obtain ⟨key, found⟩ := lookup_of_finds h
  simp only [State.runReadTitle, withKey_some key, found]

/-- R31: the records collected are the first of those that stand from the start slot on. -/
theorem collect_split (t : TitleTable) (start count : Nat) :
    ∃ rest, t.slots.filter (fun e => decide (start ≤ e.1)) = t.collect start count ++ rest ∧
      (t.collect start count).length ≤ count ∧ ((t.collect start count).length < count → rest = []) := by
  refine ⟨(t.slots.filter fun e => decide (start ≤ e.1)).drop count, (List.take_append_drop _ _).symm, ?_, fun h => ?_⟩
  · exact List.length_take_le _ _
  · simp only [TitleTable.collect, List.length_take] at h
    exact List.drop_eq_nil_of_le (by omega)
/-- R31: with the count collected, the walk goes on behind the last record collected; else it has examined slot 8191. -/
theorem nextSlot_cases (got : List (Nat × TitleRecord)) {count : Nat} (h : 1 ≤ count) :
    (got.length = count ∧ ∃ front e, got = front ++ [e] ∧ nextSlot got count = e.1 + 1) ∨
    (got.length ≠ count ∧ nextSlot got count = Config.titleSlots) := by
  by_cases full : got.length = count
  · have some : got ≠ [] := by
      rintro rfl
      simp at full
      omega
    refine .inl ⟨full, got.dropLast, got.getLast some, (List.dropLast_append_getLast some).symm, ?_⟩
    simp [nextSlot, List.getLast?_eq_getLast_of_ne_nil some, full]
  · refine .inr ⟨full, ?_⟩
    unfold nextSlot
    split
    · rw [if_neg full]
    · rfl
/-- R31: LIST TITLES collects every record from its start slot to where it says to go on. -/
theorem collect_spec {t : TitleTable} (wf : t.wf) (start : Nat) {count : Nat} (hc : 1 ≤ count) :
    (∀ e ∈ t.collect start count, e ∈ t.slots ∧ start ≤ e.1 ∧ e.1 < nextSlot (t.collect start count) count) ∧
    (∀ e ∈ t.slots, start ≤ e.1 → e.1 < nextSlot (t.collect start count) count → e ∈ t.collect start count) ∧
    ((t.collect start count).map (·.1)).Pairwise (· < ·) ∧
    ((t.collect start count).length = count ∧ (∃ e ∈ t.collect start count, nextSlot (t.collect start count) count = e.1 + 1) ∨
      (t.collect start count).length < count ∧ nextSlot (t.collect start count) count = 8192) := by
  obtain ⟨rest, split, le, all⟩ := collect_split t start count
  generalize t.collect start count = got at *
  have mem (e : Nat × TitleRecord) : e ∈ got ∨ e ∈ rest ↔ e ∈ t.slots ∧ start ≤ e.1 := by
    rw [← List.mem_append, ← split, List.mem_filter, decide_eq_true_iff]
  have rising : ((got ++ rest).map (·.1)).Pairwise (· < ·) := by
    rw [← split]
    exact wf.1.sublist (List.filter_sublist.map _)
  rw [List.map_append, List.pairwise_append] at rising
  obtain ⟨rising_got, -, across⟩ := rising
  obtain ⟨full, front, last, shape, next⟩ | ⟨short, next⟩ := nextSlot_cases got hc
  · have last_mem : last ∈ got := by simp [shape]
    have upTo (e : Nat × TitleRecord) (he : e ∈ got) : e.1 ≤ last.1 := by
      rw [shape] at he rising_got
      rw [List.map_append, List.pairwise_append] at rising_got
      obtain he | he := List.mem_append.1 he
      · exact Nat.le_of_lt (rising_got.2.2 _ (List.mem_map_of_mem he) _ (by simp))
      · simp [List.mem_singleton.1 he]
    rw [next]
    refine ⟨fun e he => ?_, fun e he from_start before => ?_, rising_got, .inl ⟨full, last, last_mem, rfl⟩⟩
    · obtain ⟨slot, from_start⟩ := (mem e).1 (.inl he)
      exact ⟨slot, from_start, Nat.lt_succ_of_le (upTo e he)⟩
    · obtain he' | he' := (mem e).2 ⟨he, from_start⟩
      · exact he'
      · have := across _ (List.mem_map_of_mem last_mem) _ (List.mem_map_of_mem he')
        omega
  · have none : rest = [] := all (by omega)
    subst none
    rw [next]
    refine ⟨fun e he => ?_, fun e he from_start _ => ?_, rising_got, .inr ⟨by omega, rfl⟩⟩
    · obtain ⟨slot, from_start⟩ := (mem e).1 (.inl he)
      exact ⟨slot, from_start, wf.2.1 e slot⟩
    · simpa using (mem e).2 ⟨he, from_start⟩

/-- Settles O16: READ TITLE by what a lookup finds, LIST TITLES by what it collects. -/
theorem titlesAreReadAndListed : Obligations.TitlesAreReadAndListed := by
  refine ⟨fun tag kt s hs bad => ?invalid, fun tag kt k s hs lacks => ?absent, fun tag kt n r s hs finds => ?found,
    fun tag f s hs out => ?outside, fun tag f s hs wf start low high => ?listed⟩
  case invalid => exact refuses_of_command (exec_readTitle tag _ s) rfl hs fun t _ => withKey_none bad t _
  case absent =>
    refine refuses_of_command (exec_readTitle tag _ s) rfl hs fun t ht => runReadTitle_absent (k := k) ?_
    rw [ht]
    exact lacks
  case found => exact takes_of_block (exec_readTitle tag _ s) hs (runReadTitle_found finds)
  case outside =>
    refine refuses_of_command (exec_listTitles tag _ s) rfl hs fun t _ => if_pos ?_
    obtain out | zero | out := out
    · exact .inl out
    · exact .inr (.inl (by simp [zero]))
    · exact .inr (.inr out)
  case listed =>
    obtain ⟨got, all, rising, ends⟩ := collect_spec wf f.start.toNat low
    refine ⟨_, _, takes_of_block (exec_listTitles tag _ s) hs (if_neg ?_), got, all, rising, ends⟩
    unfold Config.titleSlots
    omega

end Sys2Proof.Machine
end

section
/-! ANNOUNCE TITLE and WITHDRAW TITLE (R19, R20, R23 to R25, R29, R150). -/

namespace Sys2Proof.Machine

theorem exec_announceTitle (tag : Byte) (body : Body AnnounceFields) (s : State) :
    exec (.announceTitle tag body) s = s.command 0x10#8 tag body fun f s => s.runAnnounceTitle f := rfl
theorem exec_withdrawTitle (tag : Byte) (body : Body KeyText) (s : State) :
    exec (.withdrawTitle tag body) s = s.command 0x12#8 tag body fun k s => s.runWithdrawTitle k := rfl

/-! What is announced. -/

theorem chuteOf_isSome_iff (c : ItemClass) :
    (chuteOf c).isSome = true ↔ c = .preserve ∨ c = .reading ∨ c = .transfer ∨ c = .serials := by
  cases c <;> decide
theorem cls_of_chuteOf {c : ItemClass} {d : Chute} (h : chuteOf c = some d) : d.cls = c := by
  cases c <;> cases h <;> rfl
/-- R16: a plan is read when every entry is a chute class. -/
theorem planOf_isSome_iff (cs : List ItemClass) :
    (planOf cs).isSome = true ↔ ∀ c ∈ cs, c = .preserve ∨ c = .reading ∨ c = .transfer ∨ c = .serials := by
  induction cs with
  | nil => simp [planOf]
  | cons c t ih =>
    rw [List.forall_mem_cons, ← ih, ← chuteOf_isSome_iff, planOf]
    split
    · next hc ht => simp [hc, ht]
    · next h =>
      simp only [Option.isSome_none, Bool.false_eq_true, false_iff, Option.isSome_iff_exists]
      rintro ⟨⟨d, hd⟩, ds, hds⟩
      exact h d ds hd hds
/-- R16: the plan read shows the classes given. -/
theorem cls_of_planOf {cs : List ItemClass} {plan : List Chute} (h : planOf cs = some plan) : plan.map Chute.cls = cs := by
  induction cs generalizing plan with
  | nil => cases h; rfl
  | cons c t ih =>
    rw [planOf] at h
    split at h
    · next hd ht =>
      cases h
      rw [List.map_cons, cls_of_chuteOf hd, ih ht]
    · cases h

/-- R23, check 6. -/
theorem serialGiven_inRange_iff (g : SerialGiven) :
    SerialGiven.inRange g = true ↔ g.p.toNat ≤ 999 ∧ g.first.toNat ≤ 65535999 ∧
      (∀ x, g.gapLag = some x → x.toNat ≤ 15) ∧ ∀ x, g.dayLag = some x → x.toNat ≤ 365 := by
  unfold SerialGiven.inRange
  rw [decide_eq_true_iff]
  cases g.gapLag <;> cases g.dayLag <;> simp [Config.maxOrdinal]
/-- R23: the checks of ANNOUNCE TITLE are those the rule states. -/
theorem announce_inRange_iff (f : AnnounceFields) (k : Key) : AnnounceFields.inRange f k = true ↔ AnnounceFields.accepted f k := by
  have parts : (match f.kind, f.serial with
      | .monograph, none => true
      | .monograph, some _ => false
      | .serial, none => false
      | .serial, some g => f.due.isNone && SerialGiven.inRange g) = true ↔
      (f.kind = .monograph → f.serial = none) ∧
      (f.kind = .serial → f.due = none ∧ ∃ g, f.serial = some g ∧ g.p.toNat ≤ 999 ∧ g.first.toNat ≤ 65535999 ∧
        (∀ x, g.gapLag = some x → x.toNat ≤ 15) ∧ ∀ x, g.dayLag = some x → x.toNat ≤ 365) := by
    cases f.kind <;> cases f.serial <;> simp [serialGiven_inRange_iff]
  unfold AnnounceFields.inRange AnnounceFields.accepted
  simp only [Bool.and_eq_true, decide_eq_true_iff, planOf_isSome_iff, and_assoc, Config.maxPublisher]
  refine and_congr_right fun _ => and_congr_right fun _ => and_congr_right fun _ => and_congr_right fun _ =>
    and_congr_right fun _ => and_congr decide_eq_true_iff parts
/-- R24: the record of an accepted announcement. -/
theorem newTitle_newFrom {f : AnnounceFields} {k : Key} (h : AnnounceFields.accepted f k) (t : TitleTable) :
    (newTitle f k t.today).newFrom f k t.day := by
  obtain ⟨-, -, -, plan, -, mono, serial⟩ := h
  obtain ⟨plan', hplan⟩ := Option.isSome_iff_exists.1 ((planOf_isSome_iff _).2 plan)
  refine ⟨rfl, rfl, rfl, rfl, ?_, rfl, rfl, ?_, fun none => ?_, fun g given => ?_⟩
  · simp only [newTitle, hplan, Option.getD_some]
    exact cls_of_planOf hplan
  · cases kind : f.kind with
    | monograph => simp [TitleRecord.kind, newTitle, mono kind]
    | serial =>
      obtain ⟨-, g, given, -⟩ := serial kind
      simp [TitleRecord.kind, newTitle, given]
  · simp only [newTitle, none]
  · simp only [newTitle, given, newSerial]
    cases g.gapLag <;> cases g.dayLag <;> rfl

/-! ANNOUNCE TITLE. -/

theorem runAnnounceTitle_refused {f : AnnounceFields} {k : Key} (key : keyOf f.key = some k)
    (h : ¬ AnnounceFields.accepted f k) (s : State) : s.runAnnounceTitle f = (s, .refused .invalid .none) := by
  rw [← announce_inRange_iff] at h
  simp only [State.runAnnounceTitle, withKey_some key, h, Bool.not_false, if_true, refuse]
theorem runAnnounceTitle_full {f : AnnounceFields} {k : Key} {s : State} (h : s.lacks f.key k) (ok : AnnounceFields.accepted f k)
    (full : s.table.lowestFree = none) : s.runAnnounceTitle f = (s, .refused .full .none) := by
  obtain ⟨key, absent⟩ := lookup_of_lacks h
  simp [State.runAnnounceTitle, withKey_some key, (announce_inRange_iff f k).2 ok, absent, full, refuse]
theorem runAnnounceTitle_inserted {f : AnnounceFields} {k : Key} {n : Nat} {s : State} (h : s.lacks f.key k)
    (ok : AnnounceFields.accepted f k) (free : s.table.lowestFree = some n) : s.runAnnounceTitle f =
      (s.withTable (s.table.place n (newTitle f k s.table.today)), .done (.announced n .inserted)) := by
  obtain ⟨key, absent⟩ := lookup_of_lacks h
  simp [State.runAnnounceTitle, withKey_some key, (announce_inRange_iff f k).2 ok, absent, free]
theorem runAnnounceTitle_replaced {f : AnnounceFields} {n : Nat} {old : TitleRecord} {s : State} (h : s.finds f.key n old)
    (ok : AnnounceFields.accepted f old.key) : s.runAnnounceTitle f =
      ((s.putRecord n (newTitle f old.key s.table.today)).withClaims (s.claims.removeKey old.key),
        .done (.announced n .replaced)) := by
  obtain ⟨key, found⟩ := lookup_of_finds h
  simp [State.runAnnounceTitle, withKey_some key, (announce_inRange_iff f old.key).2 ok, found]

/-- R20: a table that was not full gives its edge when its last slot is taken. -/
theorem withTable_of_notFull {s : State} (h : s.table.slots.length < 8192) (t : TitleTable) : s.withTable t =
    if t.slots.length = 8192 then ({ s with table := t } : State).deviceNotice .tableFull .rising .none
    else { s with table := t } := by
  have before : s.table.full = false := by
    simp only [TitleTable.full, Config.titleSlots, beq_eq_false_iff_ne]
    omega
  unfold State.withTable
  by_cases last : t.slots.length = 8192
  · have after : t.full = true := by simp [TitleTable.full, Config.titleSlots, last]
    simp [before, after, last, edgeOf]
  · have after : t.full = false := by simp [TitleTable.full, Config.titleSlots, last]
    simp [before, after, last]

/-- Settles O17: the checks, then the insertion in the lowest free slot, then the replacement in place. -/
theorem announceTitleInsertsOrReplaces : Obligations.AnnounceTitleInsertsOrReplaces := by
  refine ⟨fun tag f k s hs key bad => ?invalid, fun tag f k s hs wf lacks ok full => ?full,
    fun tag f k n s hs wf lacks ok below free lower => ?inserted, fun tag f n old s hs finds ok => ?replaced⟩
  case invalid => exact refuses_of_command (exec_announceTitle tag _ s) rfl hs fun t _ => runAnnounceTitle_refused key bad t
  case full =>
    refine refuses_of_command (exec_announceTitle tag _ s) rfl hs fun t ht => ?_
    rw [ht]
    exact runAnnounceTitle_full (s := { s with host := t.host }) lacks ok (lowestFree_full wf full)
  case inserted =>
    have lowest := lowestFree_eq wf below free lower
    refine ⟨newTitle f k s.table.today, s.table.place n (newTitle f k s.table.today), newTitle_newFrom ok s.table,
      place_puts wf below fun e he _ => lacks.2 e he, ?_⟩
    rw [← withTable_of_notFull (length_lt_of_free wf below free)]
    refine takes_of_block (exec_announceTitle tag _ s) hs ?_
    exact (runAnnounceTitle_inserted (s := s.onLink .countFrame) lacks ok lowest).trans
      (congrArg (·, _) (withTable_countFrame s _))
  case replaced =>
    refine ⟨newTitle f old.key s.table.today, s.table.place n (newTitle f old.key s.table.today),
      newTitle_newFrom ok s.table, place_puts_of_mem finds.1 finds.2.1 rfl, ?_⟩
    refine takes_of_block (exec_announceTitle tag _ s) hs ?_
    exact (runAnnounceTitle_replaced (s := s.onLink .countFrame) finds ok).trans
      (congrArg (·, _) (withClaims_countFrame (s.putRecord n _) _))

/-! WITHDRAW TITLE. -/

theorem runWithdrawTitle_absent {kt : KeyText} {k : Key} {s : State} (h : s.lacks kt k) :
    s.runWithdrawTitle kt = (s, .refused .notFound .none) := by
  obtain ⟨key, absent⟩ := lookup_of_lacks h
  simp only [State.runWithdrawTitle, withKey_some key, absent, refuse]
theorem runWithdrawTitle_tombstone {kt : KeyText} {n : Nat} {r : TitleRecord} {s : State} (h : s.finds kt n r)
    (withdrawn : r.status = .withdrawn) : s.runWithdrawTitle kt = (s, .done (.withdrawn n .withdrawn)) := by
  obtain ⟨key, found⟩ := lookup_of_finds h
  simp only [State.runWithdrawTitle, withKey_some key, found, withdrawn, if_true]
theorem runWithdrawTitle_found {kt : KeyText} {n : Nat} {r : TitleRecord} {s : State} (h : s.finds kt n r)
    (standing : r.status ≠ .withdrawn) : s.runWithdrawTitle kt =
      ((s.putRecord n r.tombstone).withClaims (s.claims.removeKey r.key), .done (.withdrawn n r.status)) := by
  obtain ⟨key, found⟩ := lookup_of_finds h
  simp only [State.runWithdrawTitle, withKey_some key, found, standing, if_false]

/-- Settles O21: the four cases of R29. -/
theorem withdrawTitleMakesTombstones : Obligations.WithdrawTitleMakesTombstones := by
  refine ⟨fun tag kt s hs bad => ?invalid, fun tag kt k s hs lacks => ?absent,
    fun tag kt n r s hs finds withdrawn => ?tombstone, fun tag kt n r s hs finds standing => ?withdrawn⟩
  case invalid => exact refuses_of_command (exec_withdrawTitle tag _ s) rfl hs fun t _ => withKey_none bad t _
  case absent =>
    refine refuses_of_command (exec_withdrawTitle tag _ s) rfl hs fun t ht => runWithdrawTitle_absent (k := k) ?_
    rw [ht]
    exact lacks
  case tombstone =>
    exact takes_of_block (exec_withdrawTitle tag _ s) hs (runWithdrawTitle_tombstone finds withdrawn)
  case withdrawn =>
    refine ⟨r.tombstone, s.table.place n r.tombstone, place_puts_of_mem finds.1 finds.2.1 rfl, rfl, fun m body => ?_,
      fun p body => ?_, ?_⟩
    · simp only [TitleRecord.tombstone, body]
    · simp only [TitleRecord.tombstone, body]
    · refine takes_of_block (exec_withdrawTitle tag _ s) hs ?_
      exact (runWithdrawTitle_found (s := s.onLink .countFrame) finds standing).trans
        (congrArg (·, _) (withClaims_countFrame (s.putRecord n _) _))

end Sys2Proof.Machine
end

section
/-! AMEND TITLE (R26 to R28, R51, R149). -/

namespace Sys2Proof.Machine

theorem exec_amendTitle (tag : Byte) (body : Body AmendFields) (s : State) :
    exec (.amendTitle tag body) s = s.command 0x11#8 tag body fun f s => s.runAmendTitle f := rfl

/-! The checks. -/

/-- R26, check 2: the ranges are those the rule states. -/
theorem amend_inRange_iff (f : AmendFields) : AmendFields.inRange f = true ↔ AmendFields.inRanges f := by
  have q : (match f.q with
      | none => true
      | some q => decide (1 ≤ q.toNat ∧ q.toNat ≤ 4) && f.plan.isSome) = true ↔
      ∀ x, f.q = some x → 1 ≤ x.toNat ∧ x.toNat ≤ 4 ∧ f.plan ≠ none := by
    cases f.q <;> simp [Option.isSome_iff_ne_none, and_assoc]
  have plan : (match f.plan with
      | none => true
      | some p => (planOf p).isSome) = true ↔
      ∀ p, f.plan = some p → ∀ c ∈ p, c = .preserve ∨ c = .reading ∨ c = .transfer ∨ c = .serials := by
    cases f.plan <;> simp [planOf_isSome_iff]
  have rest : ((f.publisher.getD 0).toNat ≤ Config.maxPublisher ∧ (f.gapLag.getD 0).toNat ≤ 15 ∧ (f.dayLag.getD 0).toNat ≤ 365) ↔
      (∀ x, f.publisher = some x → x.toNat ≤ 999999) ∧ (∀ x, f.gapLag = some x → x.toNat ≤ 15) ∧
      ∀ x, f.dayLag = some x → x.toNat ≤ 365 := by
    cases f.publisher <;> cases f.gapLag <;> cases f.dayLag <;> simp [Config.maxPublisher]
  unfold AmendFields.inRange AmendFields.inRanges
  rw [Bool.and_eq_true, Bool.and_eq_true, decide_eq_true_iff, and_assoc]
  exact and_congr q (and_congr plan rest)
/-- R26, check 5: the changes suit the record as the rule states. -/
theorem amend_applies_iff (f : AmendFields) (r : TitleRecord) : AmendFields.applies f r = true ↔ AmendFields.suits f r := by
  have kind : (match r.kind with
      | .monograph => f.gapLag.isNone && f.dayLag.isNone
      | .serial => decide (f.due = .keep)) = true ↔
      (r.kind = .monograph → f.gapLag = none ∧ f.dayLag = none) ∧ (r.kind = .serial → f.due = .keep) := by
    cases r.kind <;> simp
  have plan : (match f.plan with
      | none => true
      | some p => decide (p.length = (f.q.map (·.toNat)).getD r.q)) = true ↔
      ∀ p, f.plan = some p → p.length = match f.q with
        | some x => x.toNat
        | none => r.q := by
    cases f.plan <;> cases f.q <;> simp
  unfold AmendFields.applies AmendFields.suits
  rw [Bool.and_eq_true, ← and_assoc]
  exact and_congr kind plan

theorem runAmendTitle_invalid {f : AmendFields} {k : Key} (key : keyOf f.key = some k) (h : ¬ AmendFields.inRanges f) (s : State) :
    s.runAmendTitle f = (s, .refused .invalid .none) := by
  rw [← amend_inRange_iff] at h
  simp only [State.runAmendTitle, withKey_some key, h, Bool.not_false, if_true, refuse]
theorem runAmendTitle_absent {f : AmendFields} {k : Key} {s : State} (h : s.lacks f.key k) (ok : AmendFields.inRanges f) :
    s.runAmendTitle f = (s, .refused .notFound .none) := by
  obtain ⟨key, absent⟩ := lookup_of_lacks h
  simp [State.runAmendTitle, withKey_some key, (amend_inRange_iff f).2 ok, absent, refuse]
theorem runAmendTitle_withdrawn {f : AmendFields} {n : Nat} {r : TitleRecord} {s : State} (h : s.finds f.key n r)
    (ok : AmendFields.inRanges f) (withdrawn : r.status = .withdrawn) : s.runAmendTitle f = (s, .refused .badState .none) := by
  obtain ⟨key, found⟩ := lookup_of_finds h
  simp [State.runAmendTitle, withKey_some key, (amend_inRange_iff f).2 ok, found, withdrawn, refuse]
theorem runAmendTitle_unsuited {f : AmendFields} {n : Nat} {r : TitleRecord} {s : State} (h : s.finds f.key n r)
    (ok : AmendFields.inRanges f) (standing : r.status ≠ .withdrawn) (bad : ¬ AmendFields.suits f r) :
    s.runAmendTitle f = (s, .refused .invalid .none) := by
  obtain ⟨key, found⟩ := lookup_of_finds h
  rw [← amend_applies_iff] at bad
  simp [State.runAmendTitle, withKey_some key, (amend_inRange_iff f).2 ok, found, standing, bad, refuse]
theorem runAmendTitle_amended {f : AmendFields} {n : Nat} {r : TitleRecord} {s : State} (h : s.finds f.key n r)
    (ok : AmendFields.inRanges f) (standing : r.status ≠ .withdrawn) (suits : AmendFields.suits f r) :
    s.runAmendTitle f = ((s.settleAmended n (AmendFields.change f r)).1,
      .done (.amended r.standing (s.settleAmended n (AmendFields.change f r)).2.standing)) := by
  obtain ⟨key, found⟩ := lookup_of_finds h
  simp [State.runAmendTitle, withKey_some key, (amend_inRange_iff f).2 ok, found, standing, (amend_applies_iff f r).2 suits]

/-- Settles O18: the checks that follow the key's, in their order. -/
theorem amendTitleIsChecked : Obligations.AmendTitleIsChecked := by
  refine ⟨fun tag f k s hs key bad => ?ranges, fun tag f k s hs lacks ok => ?absent,
    fun tag f n r s hs finds ok withdrawn => ?withdrawn, fun tag f n r s hs finds ok standing bad => ?unsuited⟩
  case ranges => exact refuses_of_command (exec_amendTitle tag _ s) rfl hs fun t _ => runAmendTitle_invalid key bad t
  case absent =>
    refine refuses_of_command (exec_amendTitle tag _ s) rfl hs fun t ht => ?_
    rw [ht]
    exact runAmendTitle_absent (s := { s with host := t.host }) lacks ok
  case withdrawn =>
    refine refuses_of_command (exec_amendTitle tag _ s) rfl hs fun t ht => ?_
    rw [ht]
    exact runAmendTitle_withdrawn (s := { s with host := t.host }) finds ok withdrawn
  case unsuited =>
    refine refuses_of_command (exec_amendTitle tag _ s) rfl hs fun t ht => ?_
    rw [ht]
    exact runAmendTitle_unsuited (s := { s with host := t.host }) finds ok standing bad

/-! The changes. -/

/-- R26: a new plan given within its ranges is the record's; else the record keeps its own. -/
theorem change_plan {f : AmendFields} (ok : AmendFields.inRanges f) (r : TitleRecord) :
    (f.plan = none → (AmendFields.change f r).plan = r.plan) ∧
    ∀ p, f.plan = some p → (AmendFields.change f r).plan.map Chute.cls = p := by
  obtain ⟨-, plan, -⟩ := ok
  refine ⟨fun none => by simp [AmendFields.change, none], fun p given => ?_⟩
  obtain ⟨plan', hplan⟩ := Option.isSome_iff_exists.1 ((planOf_isSome_iff p).2 (plan p given))
  simp [AmendFields.change, given, hplan, cls_of_planOf hplan]
/-- R27: the claim state of a MONOGRAPH amended to Q copies: satisfied as an EXPECTED record becomes COMPLETE. -/
def TitleRecord.amendedClaim (r : TitleRecord) (m : MonographPart) (q : Nat) : ClaimState :=
  if r.status = .expected ∧ q ≤ m.copies then .none else m.claim
/-- R27: a MONOGRAPH record after its changes, settled against the copies received. -/
def AmendFields.settledMonograph (f : AmendFields) (r : TitleRecord) (m : MonographPart) : TitleRecord :=
  { AmendFields.change f r with
    status := if (AmendFields.change f r).q ≤ m.copies then .complete else .expected
    body := .monograph
      { m with due := DueChange.apply f.due m.due, claim := r.amendedClaim m (AmendFields.change f r).q } }
/-- R27, R149: what the settling of a MONOGRAPH leaves: its record in its slot, and its LISTED claim removed when it is satisfied. -/
theorem settleAmended_monograph (f : AmendFields) {r : TitleRecord} {m : MonographPart} (standing : r.status ≠ .withdrawn)
    (body : r.body = .monograph m) (s : State) (n : Nat) :
    s.settleAmended n (AmendFields.change f r) =
      (if m.claim = .listed ∧ r.status = .expected ∧ (AmendFields.change f r).q ≤ m.copies then
        (s.putRecord n (AmendFields.settledMonograph f r m)).withClaims (s.claims.removeMonograph r.key)
      else s.putRecord n (AmendFields.settledMonograph f r m), AmendFields.settledMonograph f r m) := by
  have changed : (AmendFields.change f r).body = .monograph { m with due := DueChange.apply f.due m.due } := by
    simp only [AmendFields.change, body]
  have status : (AmendFields.change f r).status = r.status := rfl
  have key : (AmendFields.change f r).key = r.key := rfl
  by_cases enough : (AmendFields.change f r).q ≤ m.copies
  · by_cases expected : r.status = .expected
    · simp only [State.settleAmended, changed, status, key, enough, expected, AmendFields.settledMonograph,
        TitleRecord.amendedClaim, if_true, and_self, and_true]
      cases m.claim <;> simp [State.satisfyMonograph, withClaims_putRecord]
    · have stays : AmendFields.settledMonograph f r m = AmendFields.change f r := by
        have complete : r.status = .complete := by
          cases h : r.status <;> simp_all
        rw [AmendFields.settledMonograph, TitleRecord.amendedClaim, if_pos enough, if_neg fun h => expected h.1, ← changed,
          ← complete]
        rfl
      simp only [State.settleAmended, changed, status, enough, expected, stays, if_true, if_false, false_and, and_false]
  · simp [State.settleAmended, changed, enough, AmendFields.settledMonograph, TitleRecord.amendedClaim]

/-! The settling of a SERIAL. -/

/-- R28: a SERIAL record after its changes, its base advanced. -/
def AmendFields.settledSerial (f : AmendFields) (r : TitleRecord) (p : SerialPart) : TitleRecord :=
  { AmendFields.change f r with
    body := .serial (SerialPart.advance
      { p with
        gapLag := (f.gapLag.map (·.toNat)).getD p.gapLag
        dayLag := (f.dayLag.map (·.toNat)).getD p.dayLag } (AmendFields.change f r).q) }
theorem settleAmended_serial (f : AmendFields) {r : TitleRecord} {p : SerialPart} (body : r.body = .serial p) (s : State) (n : Nat) :
    s.settleAmended n (AmendFields.change f r) =
      (s.putRecord n (AmendFields.settledSerial f r p), AmendFields.settledSerial f r p) := by
  have changed : (AmendFields.change f r).body = .serial
      { p with
        gapLag := (f.gapLag.map (·.toNat)).getD p.gapLag
        dayLag := (f.dayLag.map (·.toNat)).getD p.dayLag } := by
    simp only [AmendFields.change, body]
  simp only [State.settleAmended, changed, AmendFields.settledSerial]

/-! The statements. -/

/-- Settles O19: the changes, and the settling against the copies received. -/
theorem amendTitleSettlesMonographs : Obligations.AmendTitleSettlesMonographs := by
  intro tag f n r m s hs finds standing body ok suits
  obtain ⟨plan_kept, plan_new⟩ := change_plan ok r
  refine ⟨AmendFields.settledMonograph f r m, r.amendedClaim m (AmendFields.change f r).q,
    s.table.place n (AmendFields.settledMonograph f r m), place_puts_of_mem finds.1 finds.2.1 rfl, ?shape, plan_kept, plan_new,
    fun satisfied => if_pos satisfied, fun stands => if_neg ?claim, ?taken⟩
  case shape =>
    simp only [AmendFields.settledMonograph, AmendFields.change]
    refine (TitleRecord.mk.injEq ..).mpr ⟨rfl, rfl, ?_, ?_, rfl, rfl, rfl, ?_⟩
    · cases f.publisher <;> rfl
    · cases f.q <;> rfl
    · cases f.due <;> rfl
  case claim =>
    rintro ⟨expected, enough⟩
    obtain complete | more := stands
    · simp [expected] at complete
    · exact absurd enough (Nat.not_le.2 more)
  case taken =>
    refine takes_of_block (exec_amendTitle tag _ s) hs ?_
    rw [runAmendTitle_amended (s := s.onLink .countFrame) finds ok standing suits, settleAmended_monograph f standing body]
    simp only [TitleRecord.standing, body]
    by_cases listed : m.claim = .listed ∧ r.status = .expected ∧ (AmendFields.change f r).q ≤ m.copies
    · rw [if_pos listed, if_pos ?_]
      · exact congrArg (·, _) (withClaims_countFrame (s.putRecord n _) _)
      · exact listed
    · rw [if_neg listed, if_neg ?_]
      · rfl
      · exact listed

/-- Settles O20: the changes, and the advance of the base, read off the cells of the window. -/
theorem amendTitleAdvancesSerials : Obligations.AmendTitleAdvancesSerials := by
  refine ⟨fun tag f n r p s hs finds standing body ok suits => ?amended, fun p q len hq => ?advance⟩
  case amended =>
    obtain ⟨plan_kept, plan_new⟩ := change_plan ok r
    refine ⟨AmendFields.settledSerial f r p, s.table.place n (AmendFields.settledSerial f r p),
      place_puts_of_mem finds.1 finds.2.1 rfl, ?_, plan_kept, plan_new, ?_⟩
    · simp only [AmendFields.settledSerial, AmendFields.change]
      cases f.q <;> cases f.publisher <;> cases f.gapLag <;> cases f.dayLag <;> rfl
    · refine takes_of_block (exec_amendTitle tag _ s) hs ?_
      rw [runAmendTitle_amended (s := s.onLink .countFrame) finds ok standing suits, settleAmended_serial f body]
      simp only [TitleRecord.standing, body]
      rfl
  case advance =>
    have up : p.w ≤ (p.advance q).w := by
      rw [advance_w]
      omega
    refine ⟨moved_advance p q, by simp [SerialPart.advance, SerialPart.rebase, Config.windowSize], up,
      fun x from_w before => complete_of_lt_advance from_w before, incomplete_at_advance p hq, fun x from_w => ?_⟩
    rw [advance_eq]
    rw [advance_w] at from_w
    exact cell_rebase_of_le len (by omega) from_w

end Sys2Proof.Machine
end

section
/-! Power-on and reset (R192). -/

namespace Sys2Proof.Machine

theorem lane_reset (l : LaneId) : State.reset.lane l = Lane.reset := by
  simp [State.lane, State.reset, State.blank]
theorem consignment_reset (l : LaneId) : State.reset.consignment l = none := by
  simp [State.consignment, State.reset, State.blank, ConsignmentUnit.reset]

/-- R192: the STARTED notice asked at power-on takes the free line at once. -/
theorem exec_powerOn (s : State) : exec .powerOn s = .next { State.reset with pending := s.pending } := by
  rfl

/-- Settles O11: each block read off the reset state. -/
theorem powerOnGivesTheResetState : Obligations.PowerOnGivesTheResetState := by
  refine ⟨exec_powerOn, rfl, rfl, rfl, ⟨rfl, rfl, rfl, rfl, fun i => ?steering⟩, fun l => ⟨consignment_reset l, ?stray⟩, rfl,
    lane_reset, rfl, rfl⟩
  case steering => simp [State.reset, State.blank, DecisionUnit.reset]
  case stray => simp [State.reset, State.blank, ConsignmentUnit.reset]

/-- Settles O54: one block after the other; every lane is `Lane.reset`. -/
theorem invariantsHoldAtReset : Obligations.InvariantsHoldAtReset := by
  have lane : Lane.wf Lane.reset := by decide
  have test : TestUnit.wf Lane.reset.test ∧ Lane.reset.faults ≤ Config.faultLimit := by decide
  refine ⟨⟨by decide, by decide, ?_, ?_⟩, ⟨dayWf_none, by decide⟩, ⟨rfl, by decide, by decide⟩, fun l => ?_, fun l => ?_,
    ⟨by decide, fun l c open_ => ?_⟩, ?_, ?_, by decide, fun idle => nomatch idle⟩
  · exact fun e he => nomatch he
  · exact fun n r m h => nomatch h
  · rw [lane_reset]
    exact lane
  · rw [lane_reset]
    exact test
  · rw [consignment_reset] at open_
    cases open_
  · decide +kernel
  · intro l
    rw [lane_reset]
    rfl

end Sys2Proof.Machine
end

section
/-! Filing stands apart from the rest of the state (R185, R189): what is set of the lanes, the consignments and the engine can be set before
or after, and what an operation does to the report unit is a list of filings. -/

namespace Sys2Proof.Machine

/-- Filing changes the report unit and the link counters alone. -/
theorem file_eq (s : State) (f : Filing) :
    s.file f = { s with report := (s.file f).report, host := { s.host with counters := (s.file f).host.counters } } := by
  cases f with
  | reserve | item | completion => rfl
  | lane | device =>
    simp only [State.file, State.ask]
    split
    · split <;> rfl
    · rfl
theorem files_eq (s : State) (fs : List Filing) :
    s.files fs = { s with report := (s.files fs).report, host := { s.host with counters := (s.files fs).host.counters } } := by
  induction fs generalizing s with
  | nil => rfl
  | cons f fs ih =>
    rw [files_cons, ih (s.file f), file_eq s f]
/-- What is filed at a state that shares the report unit, the link counters, the day and the configurations. -/
theorem files_eq_of {s t : State} (fs : List Filing) (day : t.table.day = s.table.day) (report : t.report = s.report)
    (counters : t.host.counters = s.host.counters) (configs : ∀ l : LaneId, (t.lane l).config = (s.lane l).config) :
    t.files fs = { t with report := (s.files fs).report, host := { t.host with counters := (s.files fs).host.counters } } := by
  obtain ⟨hr, hc⟩ := files_commute fs day report counters configs
  rw [files_eq t fs, hr, hc]

theorem config_setLane {s : State} {l : LaneId} {v : Lane} (h : v.config = (s.lane l).config) (k : LaneId) :
    ((s.setLane l v).lane k).config = (s.lane k).config := by
  by_cases e : k = l
  · subst e
    rw [lane_setLane_same, h]
  · rw [lane_setLane_other s v e]
theorem setLane_files {s : State} {l : LaneId} {v : Lane} (fs : List Filing) (h : v.config = (s.lane l).config) :
    (s.files fs).setLane l v = (s.setLane l v).files fs := by
  rw [files_eq_of (s := s) (t := s.setLane l v) fs rfl rfl rfl (config_setLane h), files_eq s fs]
  rfl
theorem onLane_files {s : State} {l : LaneId} {f : Lane → Lane} (fs : List Filing) (h : (f (s.lane l)).config = (s.lane l).config) :
    (s.files fs).onLane l f = (s.onLane l f).files fs := by
  rw [State.onLane, lane_files, setLane_files fs h, State.onLane]
/-- Work at a lane, and filings, one after the other. -/
theorem setLane_files_setLane {s : State} {l : LaneId} {v w : Lane} (fs gs : List Filing) (h : w.config = v.config) :
    (((s.setLane l v).files fs).setLane l w).files gs = (s.setLane l w).files (fs ++ gs) := by
  rw [setLane_files fs (by rw [lane_setLane_same, h]), setLane_setLane, files_append]
theorem onLane_setLane_files {s : State} {l : LaneId} {v : Lane} {f : Lane → Lane} (fs : List Filing) (h : (f v).config = v.config) :
    ((s.setLane l v).files fs).onLane l f = (s.setLane l (f v)).files fs := by
  rw [onLane_files fs (by rw [lane_setLane_same, h]), onLane_setLane]
theorem setConsignment_files (s : State) (l : LaneId) (c : Option Consignment) (fs : List Filing) :
    (s.files fs).setConsignment l c = (s.setConsignment l c).files fs := by
  rw [files_eq_of (s := s) (t := s.setConsignment l c) fs rfl rfl rfl fun _ => rfl, files_eq s fs]
  rfl
theorem clearStray_files (s : State) (l : LaneId) (fs : List Filing) : (s.files fs).clearStray l = (s.clearStray l).files fs := by
  rw [files_eq_of (s := s) (t := s.clearStray l) fs rfl rfl rfl fun _ => rfl, files_eq s fs]
  rfl
theorem idle_files (s : State) (fs : List Filing) :
    ({ s.files fs with engine := none } : State) = ({ s with engine := none } : State).files fs := by
  rw [files_eq_of (s := s) (t := { s with engine := none }) fs rfl rfl rfl fun _ => rfl, files_eq s fs]
/-- R189, R190: the frames taken do not meet the notices dropped. -/
theorem file_countFrame (s : State) (f : Filing) : (s.onLink .countFrame).file f = (s.file f).onLink .countFrame := by
  cases f with
  | reserve | item | completion => rfl
  | lane | device =>
    simp only [State.file, State.ask, onLink_fields, lane_onLink]
    split
    · split <;> rfl
    · rfl
theorem files_countFrame (s : State) (fs : List Filing) : (s.onLink .countFrame).files fs = (s.files fs).onLink .countFrame := by
  induction fs generalizing s with
  | nil => rfl
  | cons f fs ih => rw [files_cons, file_countFrame, ih, files_cons]

/-! Operations as filings. -/

theorem ask_started (s : State) (c : StartCause) :
    s.ask .device .started .event (.started c) = s.files [.device .started .event (.started c)] := by
  have on : s.report.enables.on .started .event = true := rfl
  simp [State.file, on]
/-- A notice asked only when something holds is a list of none or one. -/
theorem files_ite (s : State) (c : Prop) [Decidable c] (fs : List Filing) :
    (if c then s.files fs else s) = s.files (if c then fs else []) := by
  split <;> rfl

/-- R103: the record of an item that ends, filled into its slot; none on a TEST lane. -/
theorem endItem_eq (s : State) (l : LaneId) (i : Item) (o : ItemOutcome) (x : Fin 8) (r : Reason) (c : ConfirmResult) (f : Bool) :
    s.endItem l i o x r c f =
      s.files ((if accounts (s.lane l).mode then [.disposition (i.disposition o x r c f)] else []).map .item) := by
  unfold State.endItem
  split <;> rfl

/-- A lane set as it is. -/
theorem setLane_self (s : State) (l : LaneId) : s.setLane l (s.lane l) = s := by
  simp [State.setLane, State.lane]
theorem setConsignment_self {s : State} {l : LaneId} {c : Option Consignment} (h : s.consignment l = c) :
    s.setConsignment l c = s := by
  subst h
  simp [State.setConsignment, State.consignment]
/-- R136: the closing of a consignment. -/
theorem closeConsignment_eq (s : State) (l : LaneId) (cause : CloseCause) : s.closeConsignment l cause =
    (s.setConsignment l none).files ((s.consignment l).toList.map fun c => .item (.summary ⟨l, c, cause, s.table.today, c.overDeclared⟩)) := by
  unfold State.closeConsignment
  split
  · next h => rw [h, setConsignment_self h]; rfl
  · next c h => rw [h]; rfl
/-- The same behind work at the lane, and filings. -/
theorem closeConsignment_files (s : State) (l : LaneId) (v : Lane) (fs : List Filing) (cause : CloseCause) :
    ((s.setLane l v).files fs).closeConsignment l cause = ((s.setConsignment l none).setLane l v).files
      (fs ++ ((s.consignment l).toList.map fun c => .summary ⟨l, c, cause, s.table.today, c.overDeclared⟩).map .item) := by
  have unit_ : ((s.setLane l v).files fs).consign = s.consign ∧ ((s.setLane l v).files fs).table = s.table := by simp
  obtain ⟨consign, table⟩ := unit_
  rw [closeConsignment_eq, setConsignment_files, consignment_of_consign consign l, table, files_append, List.map_map]
  rfl
/-- R99: a window that closes UNCONFIRMED. -/
theorem closeWindow_unconfirmed (s : State) (l : LaneId) : s.closeWindow l .unconfirmed =
    (s.setLane l { s.lane l with held := none }).files ((s.windowRecords l .unconfirmed).map .item) := by
  unfold State.closeWindow State.windowRecords
  split
  · next h =>
    have same : { s.lane l with held := none } = s.lane l := by rw [← h]
    rw [same, setLane_self, h]
    simp
  · next h held =>
    simp only [held, lane_onLane_same, Lane.countFault, if_true, endItem_eq]
    rfl

/-! A lane flushed. -/

/-- R104: the records of the queued items of a flush; none on a TEST lane. -/
def State.flushRecords (s : State) (l : LaneId) (reason : Reason) (items : List Item) : List ReportRecord :=
  if accounts (s.lane l).mode then items.map fun i => .disposition
    (i.disposition .flushed (i.decidedOutlet (s.lane l).config.outlets) (if i.state = .reading then .incomplete else reason) .unconfirmed false)
  else []
/-- R81, R104: n more items flushed. -/
def Lane.countFlushed (v : Lane) (n : Nat) : Lane :=
  { v with counters := { v.counters with flushed := Nat.repeat bump n v.counters.flushed } }
theorem leavingRecords_eq (s : State) (l : LaneId) (reason : Reason) : s.leavingRecords l reason =
    s.windowRecords l .unconfirmed ++ s.flushRecords l reason (s.lane l).queue ++
      (s.consignment l).toList.map fun c => .summary ⟨l, c, .abandoned, s.table.today, c.overDeclared⟩ := by
  unfold State.leavingRecords State.windowRecords State.flushRecords
  split <;> rfl
theorem flushRecords_setLane {s : State} {l : LaneId} {v : Lane} (mode : v.mode = (s.lane l).mode)
    (config : v.config = (s.lane l).config) (fs : List Filing) (reason : Reason) (items : List Item) :
    ((s.setLane l v).files fs).flushRecords l reason items = s.flushRecords l reason items := by
  simp only [State.flushRecords, lane_files, lane_setLane_same, mode, config]
theorem flushItem_eq (s : State) (l : LaneId) (reason : Reason) (i : Item) : State.flushItem l reason s i =
    (s.setLane l ((s.lane l).countFlushed 1)).files ((s.flushRecords l reason [i]).map .item) := by
  unfold State.flushItem State.flushRecords
  rw [endItem_eq, State.onCounters, lane_onLane_same]
  rfl
theorem flushItems_eq (s : State) (l : LaneId) (reason : Reason) (items : List Item) :
    items.foldl (State.flushItem l reason) s =
      (s.setLane l ((s.lane l).countFlushed items.length)).files ((s.flushRecords l reason items).map .item) := by
  induction items using List.reverseRecOn with
  | nil =>
    have none : s.flushRecords l reason [] = [] := by simp [State.flushRecords]
    rw [none]
    exact (setLane_self s l).symm
  | append_singleton items i ih =>
    have records : s.flushRecords l reason (items ++ [i]) = s.flushRecords l reason items ++ s.flushRecords l reason [i] := by
      unfold State.flushRecords
      split <;> simp
    rw [List.foldl_append, ih, List.foldl_cons, List.foldl_nil, flushItem_eq, flushRecords_setLane, lane_files,
      lane_setLane_same, setLane_files_setLane, records, List.map_append, List.length_append] <;> rfl
/-- R99, R104: a lane without its items. -/
def Lane.emptied (v : Lane) : Lane := { v.countFlushed v.queue.length with queue := [], held := none }
/-- R104: the items of a lane gone. -/
theorem flush_eq (s : State) (l : LaneId) (reason : Reason) : s.flush l reason =
    (s.setLane l (s.lane l).emptied).files
      ((s.windowRecords l .unconfirmed ++ s.flushRecords l reason (s.lane l).queue).map .item) := by
  unfold State.flush
  dsimp only
  rw [closeWindow_unconfirmed, flushItems_eq, flushRecords_setLane, lane_files, lane_setLane_same, setLane_files_setLane,
    onLane_setLane_files, List.map_append] <;> rfl

/-! A lane that leaves service. -/

theorem level_eq_empty_iff (v : Lane) : v.level = .empty ↔ v.queue = [] := by
  unfold Lane.level levelOf Lane.occupancy
  rw [← List.length_eq_zero_iff]
  split
  · simp [*]
  · split
    · simp [*]
    · split <;> simp [*]
/-- R104, R174: the lane after its items have left, OUT OF SYNC. -/
def Lane.swept (v : Lane) : Lane := { v.emptied with test := { v.test with inSync := false, inject := false } }
/-- R92: the level after the items have left is EMPTY; the notice tells so when it was not. -/
theorem levelNotice_emptied (s : State) (l : LaneId) (fs : List Filing) :
    ((s.setLane l (s.lane l).emptied).files fs).levelNotice l (s.lane l).level =
      (s.setLane l (s.lane l).emptied).files
        (fs ++ if (s.lane l).queue = [] then [] else [.lane l .levelChange .event (.level .empty)]) := by
  have level : (s.lane l).emptied.level = .empty := (level_eq_empty_iff _).2 rfl
  rw [State.levelNotice, lane_files, lane_setLane_same, level, files_append]
  by_cases empty : (s.lane l).queue = []
  · rw [if_pos empty, if_pos ((level_eq_empty_iff _).2 empty).symm, files_nil]
  · rw [if_neg empty, if_neg fun h => empty ((level_eq_empty_iff _).1 h.symm)]
    rfl
/-- R174: the sync lost, and its fall. -/
theorem leaveService_emptied (s : State) (l : LaneId) (fs : List Filing) :
    ((s.setLane l (s.lane l).emptied).files fs).leaveService l =
      (s.setLane l (s.lane l).swept).files (fs ++ if (s.lane l).test.inSync then [.lane l .testSync .falling .none] else []) := by
  rw [State.leaveService, onLane_setLane_files, lane_files, lane_setLane_same, files_append, ← files_ite] <;> rfl
/-- R104, R137, R174: what a lane loses and files as it leaves service. -/
theorem sweepLane_eq (s : State) (l : LaneId) (reason : Reason) : s.sweepLane l reason =
    ((s.setConsignment l none).setLane l (s.lane l).swept).files (s.leavingFilings l reason) := by
  unfold State.sweepLane
  rw [flush_eq, closeConsignment_files]
  refine (congrArg (State.leaveService · l) (levelNotice_emptied (s.setConsignment l none) l _)).trans ?_
  refine (leaveService_emptied (s.setConsignment l none) l _).trans ?_
  simp only [State.leavingFilings, leavingRecords_eq, List.map_append]
  rfl

/-! A lane disabled. -/

/-- R69: the lane DISABLED, with the records it had not begun to send discarded. -/
def Lane.disabledAs (v : Lane) : Lane :=
  { v.swept with state := .disabled, sync := false, silenceTimer := none, expected := none, rx := [], outbox := [] }
theorem config_produce (v : Lane) (r : LaneOut) : (v.produce r).config = v.config := by rw [produce_eq]
theorem toldHold_of_clear {v : Lane} (h : v.hold = false) : v.toldHold = ({ v with hold := true } : Lane).produce .hold := by
  rw [Lane.toldHold, h, if_neg Bool.false_ne_true]
/-- R88: the hold flag of a lane that is not ACTIVE is set. -/
theorem reevaluate_inactive {s : State} {l : LaneId} {v : Lane} (h : v.state ≠ .active) (fs : List Filing) :
    ((s.setLane l v).files fs).reevaluate l =
      (s.setLane l v.toldHold).files (fs ++ if v.hold then [] else [.lane l .held .rising .none]) := by
  have holds : v.holdConditions = true := by simp [Lane.holdConditions, h]
  rw [State.reevaluate, lane_files, lane_setLane_same, holds]
  cases hold : v.hold with
  | true => simp [Lane.toldHold, hold]
  | false =>
    rw [if_neg Bool.noConfusion, onLane_setLane_files fs (config_produce _ _), files_append, toldHold_of_clear hold]
    rfl
theorem leavingNotice_eq (s : State) (l : LaneId) (before : LaneState) : s.leavingNotice l before =
    s.files (match before with
      | .silent => [.lane l .silent .falling .none]
      | .stopped => [.lane l .stopped .falling .none]
      | .active | .disabled => []) := by
  cases before <;> rfl
/-- R69, R78, R88: what a lane loses and files as it is disabled. -/
theorem disableLane_eq (s : State) (l : LaneId) (reason : Reason) : s.disableLane l reason =
    ((s.setConsignment l none).setLane l (s.lane l).disabledAs.toldHold).files (s.disablingFilings l reason) := by
  unfold State.disableLane
  dsimp only
  rw [sweepLane_eq, onLane_setLane_files, leavingNotice_eq, ← files_append]
  · exact reevaluate_inactive (v := (s.lane l).disabledAs) (by simp [Lane.disabledAs]) _
  · rfl

/-! RESTART of one lane. -/

/-- R82, R101: the lane with its RESTART values, its DIVERTER FAULT level cleared. -/
def Lane.begun (v : Lane) : Lane := { v.restarted with faults := 0, faultLevel := false }
theorem begun_of_empty {v : Lane} (disabled : v.state = .disabled) (queue : v.queue = []) (held : v.held = none) :
    v.begun = v.restartedAs := by
  rw [Lane.restartedAs, if_pos disabled, ← queue, ← held]
  rfl
theorem begun_of_inService {v : Lane} (h : v.state ≠ .disabled) : v.disabledAs.toldHold.begun = v.restartedAs := by
  rw [Lane.restartedAs, if_neg h]
  unfold Lane.toldHold Lane.produce
  cases hold : v.hold <;> cases sending : v.sending <;>
    simp [Lane.disabledAs, Lane.swept, Lane.emptied, Lane.countFlushed, Lane.begun, Lane.restarted, hold, sending, TestUnit.reset]
theorem toldHold_fields (v : Lane) : v.toldHold.config = v.config ∧ v.toldHold.faultLevel = v.faultLevel := by
  unfold Lane.toldHold
  split
  · exact ⟨rfl, rfl⟩
  · rw [produce_eq]
    exact ⟨rfl, rfl⟩
/-- R80: the DIVERTER FAULT level cleared, and its fall. -/
theorem clearFault_eq (s : State) (l : LaneId) (v : Lane) (fs : List Filing) :
    ((s.setLane l v).files fs).clearFault l = (s.setLane l { v with faults := 0, faultLevel := false }).files
      (fs ++ if v.faultLevel then [.lane l .diverterFault .falling .none] else []) := by
  rw [State.clearFault, onLane_setLane_files, lane_files, lane_setLane_same, files_append, ← files_ite] <;> rfl
/-- R142, R191: the lane restarted and its stray trailer count cleared. -/
theorem restart_begun (s : State) (l : LaneId) (v : Lane) (fs : List Filing) :
    ((((s.setLane l v).files fs).onLane l Lane.restarted).clearStray l).clearFault l =
      ((s.clearStray l).setLane l v.begun).files (fs ++ if v.faultLevel then [.lane l .diverterFault .falling .none] else []) := by
  rw [onLane_setLane_files, clearStray_files]
  · exact clearFault_eq (s.clearStray l) l v.restarted fs
  · rfl
/-- R82, R191: what RESTART makes of one lane, and what it files. -/
theorem restartLane_eq {s : State} {l : LaneId} (wf : (s.lane l).wf) (consign : (s.lane l).state = .disabled → s.consignment l = none) :
    s.restartLane l = (((s.setConsignment l none).clearStray l).setLane l (s.lane l).restartedAs).files (s.restartFilings l) := by
  unfold State.restartLane State.restartFilings
  by_cases disabled : (s.lane l).state = .disabled
  · obtain ⟨queue, held⟩ := wf.1 (.inl disabled)
    simp only [disabled, if_true]
    rw [← begun_of_empty disabled queue held, setConsignment_self (consign disabled)]
    refine Eq.trans ?_ (restart_begun s l (s.lane l) [])
    rw [setLane_self, files_nil]
  · simp only [disabled, if_false]
    rw [disableLane_eq, restart_begun, begun_of_inService disabled, (toldHold_fields _).2]
    rfl

end Sys2Proof.Machine
end

section
/-! RESTART of the part (R191): its lanes one after the other, then the engine. -/

namespace Sys2Proof.Machine

theorem exec_restart (tag : Byte) (body : Body Unit) (s : State) :
    exec (.restart tag body) s = s.command 0x08#8 tag body fun _ s => s.runRestart := rfl

/-- R82, R142, R191: the part with the lanes of a list restarted. -/
def State.restartedOn (s : State) (ls : List LaneId) : State :=
  { s with
    consign := { s.consign with
      contexts := Vector.ofFn fun k : LaneId => if k ∈ ls then none else s.consignment k
      stray := Vector.ofFn fun k : LaneId => if k ∈ ls then 0 else s.consign.stray[k] }
    lanes := Vector.ofFn fun k : LaneId => if k ∈ ls then (s.lane k).restartedAs else s.lane k }

theorem restartedOn_nil (s : State) : s.restartedOn [] = s := by
  simp [State.restartedOn, State.consignment, State.lane]
theorem lane_restartedOn {s : State} {ls : List LaneId} {l : LaneId} (h : l ∉ ls) : (s.restartedOn ls).lane l = s.lane l := by
  simp [State.restartedOn, State.lane, h]
theorem consignment_restartedOn {s : State} {ls : List LaneId} {l : LaneId} (h : l ∉ ls) :
    (s.restartedOn ls).consignment l = s.consignment l := by
  simp [State.restartedOn, State.consignment, h]
/-- One more index takes its value of f. -/
theorem set_ofFn {α : Type} {n : Nat} (ls : List (Fin n)) (l : Fin n) (f g : Fin n → α) :
    (Vector.ofFn fun k => if k ∈ ls then f k else g k).set l.val (f l) l.isLt =
      Vector.ofFn fun k => if k ∈ ls ++ [l] then f k else g k := by
  ext i hi
  by_cases e : l.val = i
  · subst e
    simp
  · have other : (⟨i, hi⟩ : Fin n) ≠ l := fun h => e (congrArg Fin.val h.symm)
    simp [e, other]
theorem restartedOn_append (s : State) (ls : List LaneId) (l : LaneId) :
    (((s.restartedOn ls).setConsignment l none).clearStray l).setLane l (s.lane l).restartedAs = s.restartedOn (ls ++ [l]) := by
  unfold State.restartedOn
  rw [← set_ofFn ls l (fun _ => none) s.consignment, ← set_ofFn ls l (fun _ => 0) fun k => s.consign.stray[k],
    ← set_ofFn ls l (fun k => (s.lane k).restartedAs) s.lane]
  rfl
/-- R170, R191: the part after RESTART, but for what is filed. -/
def State.afterRestart (s : State) : State :=
  { s with
    engine := none
    consign := { s.consign with contexts := Vector.replicate 8 none, stray := Vector.replicate 8 0 }
    lanes := Vector.ofFn fun l : LaneId => (s.lane l).restartedAs }
theorem restartedOn_all (s : State) : ({ s.restartedOn (List.finRange 8) with engine := none } : State) = s.afterRestart := by
  have constant {α : Type} (x : α) : (Vector.ofFn fun _ : Fin 8 => x) = Vector.replicate 8 x := by
    ext
    simp
  simp only [State.restartedOn, State.afterRestart, List.mem_finRange, if_true, constant]

theorem config_restartedAs (v : Lane) : v.restartedAs.config = v.config := by
  unfold Lane.restartedAs
  dsimp only
  split
  · rfl
  · exact (toldHold_fields _).1
/-- The filings of a lane read of the state that lane, its consignment and the day. -/
theorem restartFilings_of {s t : State} {l : LaneId} (lane : t.lane l = s.lane l) (consign : t.consignment l = s.consignment l)
    (table : t.table = s.table) : t.restartFilings l = s.restartFilings l := by
  simp only [State.restartFilings, State.disablingFilings, State.leavingFilings, State.leavingRecords, State.heldFiling, lane,
    consign, table]

/-- R130: a DISABLED lane has no open consignment. -/
theorem closed_of_disabled {s : State} (wf : s.consignWf) {l : LaneId} (h : (s.lane l).state = .disabled) :
    s.consignment l = none := by
  by_contra some
  obtain ⟨c, hc⟩ := Option.ne_none_iff_exists'.1 some
  obtain ⟨-, -, silent | active⟩ := wf.2 l c hc
  · simp [h] at silent
  · simp [h] at active

/-- R191: the lanes of a list, each once, restarted in their order. -/
theorem restartLanes_eq {s : State} (wf : s.lanesWf) (consign : s.consignWf) (ls : List LaneId) (once : ls.Nodup) :
    ls.foldl State.restartLane s = (s.restartedOn ls).files (ls.flatMap s.restartFilings) := by
  induction ls using List.reverseRecOn with
  | nil => rw [restartedOn_nil]; rfl
  | append_singleton ls l ih =>
    obtain ⟨once, -, apart⟩ := List.nodup_append.1 once
    have new : l ∉ ls := fun h => apart l h l (List.mem_singleton_self l) rfl
    rw [List.foldl_append, ih once, List.foldl_cons, List.foldl_nil]
    have lane (fs : List Filing) : ((s.restartedOn ls).files fs).lane l = s.lane l := by rw [lane_files, lane_restartedOn new]
    have parcel (fs : List Filing) : ((s.restartedOn ls).files fs).consignment l = s.consignment l :=
      (consignment_of_consign (by simp) l).trans (consignment_restartedOn new)
    rw [restartLane_eq, restartFilings_of (lane _) (parcel _), lane, setConsignment_files, clearStray_files, setLane_files,
      restartedOn_append, ← files_append, List.flatMap_append, List.flatMap_singleton]
    case wf => exact lane _ ▸ wf l
    case consign => exact fun disabled => (parcel _).trans (closed_of_disabled consign (lane _ ▸ disabled))
    · exact (config_restartedAs _).trans (congrArg Lane.config (lane_restartedOn new)).symm
    · simp [State.restartedOn]

/-- R170, R191: the operation in progress ended, its completion record filled. -/
theorem endEngine_eq (s : State) :
    s.endEngine = ({ s with engine := none } : State).files (s.engine.toList.map fun e => .completion e.abortedRecord) := by
  unfold State.endEngine
  split
  · next idle =>
    have same : { s with engine := none } = s := by rw [← idle]
    rw [same, idle]
    rfl
  · next e running =>
    rw [running]
    obtain ⟨op, start, current, examined, raised, owed, freed⟩ := e
    cases op <;> rfl

/-- R191: the three parts of RESTART. -/
theorem runRestart_eq {s : State} (wf : s.lanesWf) (consign : s.consignWf) : s.runRestart.1 =
    s.afterRestart.files ((List.finRange 8).flatMap s.restartFilings ++
      s.engine.toList.map (fun e => .completion e.abortedRecord) ++ [.device .started .event (.started .restart)]) := by
  have lanes : allLanes = List.finRange 8 := by decide
  have engine (fs : List Filing) : ((s.restartedOn (List.finRange 8)).files fs).engine = s.engine := by simp [State.restartedOn]
  rw [State.runRestart, lanes, restartLanes_eq wf consign _ (List.nodup_finRange 8), endEngine_eq, ask_started, idle_files, engine,
    restartedOn_all, ← files_append, ← files_append, List.append_assoc]

/-- Settles O13: RESTART lane by lane, then the engine, then the STARTED notice. -/
theorem restartKeepsTheAccount : Obligations.RestartKeepsTheAccount := by
  intro tag s hs wf consign
  refine takes_of_block (exec_restart tag _ s) hs (Prod.ext ?_ rfl)
  exact (runRestart_eq (s := s.onLink .countFrame) wf consign).trans (files_countFrame s.afterRestart _)

end Sys2Proof.Machine
end

section
/-! The ITEM END of an item that yields no slip (R90, R108, R109, R122 to R124): from what its identification finds to the item DECIDED. -/

namespace Sys2Proof.Machine

theorem exec_itemEnd (l : LaneId) (sq : Seq) (o : Option Observation) (s : State) :
    exec (.itemEnd l sq o) s = (s.receive l (.itemEnd sq o) fun s => s.endItemReading l sq o).done := rfl

/-! The reading ends. -/

/-- R90: the lane with the last observation joined. -/
def Lane.ended (v : Lane) (o : Option Observation) : Lane := v.onReading fun i => i.ended o
theorem state_ended (i : Item) (o : Option Observation) : (i.ended o).state = i.state := by
  cases o with
  | none => rfl
  | some o =>
    unfold Item.ended Item.join
    dsimp only
    split <;> rfl
theorem ended_fields (i : Item) (o : Option Observation) : (i.ended o).sq = i.sq ∧ (i.ended o).consignment = i.consignment := by
  cases o with
  | none => exact ⟨rfl, rfl⟩
  | some o =>
    unfold Item.ended Item.join
    dsimp only
    split <;> exact ⟨rfl, rfl⟩
theorem ended_none (v : Lane) : v.ended none = v := by
  simp [Lane.ended, Lane.onReading, Item.ended]
/-- R72: the READING item after its last observation. -/
theorem readingItem_ended {v : Lane} {i : Item} (h : v.readingItem = some i) (o : Option Observation) :
    (v.ended o).readingItem = some (i.ended o) := by
  have reading : i.state = .reading := by simpa using List.find?_some h
  have same (j : Item) : ((if j.state = .reading then j.ended o else j).state == .reading) = (j.state == .reading) := by
    split
    · rw [state_ended]
    · rfl
  unfold Lane.readingItem at h ⊢
  simp only [Lane.ended, Lane.onReading, List.find?_map, Function.comp_def, same, h, Option.map_some, reading, if_true]
/-- R90: the reading of a lane outside TEST mode ends in a decision. -/
theorem endReading_eq {s : State} {l : LaneId} {v : Lane} {i : Item} (reads : v.readingItem = some i) (mode : v.mode ≠ .test)
    (o : Option Observation) : (s.setLane l v).endReading l o = (s.setLane l (v.ended o)).decideItem l (i.ended o) := by
  cases o with
  | none =>
    simp only [State.endReading, lane_setLane_same, reads, mode, if_false, ended_none]
    rfl
  | some o =>
    have joined : (s.setLane l v).joinReading l o = s.setLane l (v.ended (some o)) := onLane_setLane s l v _
    have mode' : (v.ended (some o)).mode ≠ .test := mode
    simp only [State.endReading, joined, lane_setLane_same, readingItem_ended reads, mode', if_false]
/-- R175: a lane outside TEST mode sends no TEST ITEM. -/
theorem feedTest_eq {s : State} {l : LaneId} (h : (s.lane l).mode ≠ .test) : s.feedTest l = s := by
  rw [State.feedTest, State.onLane, if_neg h, setLane_self]

/-- R66, R90: the ITEM END of the READING item of a lane that accounts for its items. -/
theorem exec_itemEnd_of_reads {s : State} {l : LaneId} {sq : Seq} {o : Option Observation} {i : Item} (h : s.reads l sq o i) :
    exec (.itemEnd l sq o) s =
      (((s.setLane l ((s.lane l).heard.ended o)).decideItem l (i.ended o)).feedTest l).done := by
  obtain ⟨active, accounts, reads, -, number, valid⟩ := h
  have echo : (s.lane l).mode ≠ .echo := fun e => by simp [e, Machine.accounts] at accounts
  have test : (s.lane l).mode ≠ .test := fun e => by simp [e, Machine.accounts] at accounts
  have heard : (s.lane l).heard.readingItem = some i := reads
  have names : ((s.setLane l (s.lane l).heard).lane l).namesReading sq = true := by
    rw [lane_setLane_same, ← number]
    exact namesReading_of heard
  rw [exec_itemEnd, receive_of_acts ⟨active, echo, valid⟩, State.endItemReading, if_pos names, endReading_eq heard test]

/-! The consignment unit is told. -/

theorem countMember_setLane (s : State) (l : LaneId) (v : Lane) (number : Option Nat) (normal : Bool) (r : Reason) :
    (s.setLane l v).countMember l number normal r = (s.countMember l number normal r).setLane l v := by
  have same : (s.setLane l v).consignment l = s.consignment l := rfl
  unfold State.countMember
  rw [same]
  split
  · rfl
  · split <;> rfl
/-- R134: the counting of a member reads and changes the consignment unit alone. -/
theorem countMember_eq {s t : State} (h : t.consign = s.consign) (l : LaneId) (number : Option Nat) (normal : Bool) (r : Reason) :
    t.countMember l number normal r = { t with consign := (s.countMember l number normal r).consign } := by
  unfold State.countMember
  rw [consignment_of_consign h l]
  split
  · rw [← h]
  · split
    · rw [State.setConsignment, h]
      rfl
    · rw [← h]
theorem publisher_countReason (c : Consignment) (normal : Bool) (r : Reason) : (c.countReason normal r).publisher = c.publisher := by
  cases r <;> cases normal <;> rfl
/-- R122: a consignment counted has the publisher code it had. -/
theorem publisher_countMember (s : State) (l : LaneId) (number : Option Nat) (normal : Bool) (r : Reason) :
    ((s.countMember l number normal r).consignment l).map Consignment.publisher = (s.consignment l).map Consignment.publisher := by
  unfold State.countMember
  split
  · rfl
  · next c h =>
    split
    · rw [consignment_setConsignment_same, h, Option.map_some, publisher_countReason, Option.map_some]
    · rfl
/-- R134: a reason that counts nothing. -/
theorem countMember_of_uncounted {r : Reason} {normal : Bool} (h : ∀ c : Consignment, c.countReason normal r = c) (s : State) (l : LaneId)
    (number : Option Nat) : s.countMember l number normal r = s := by
  unfold State.countMember
  split
  · rfl
  · next c hc =>
    rw [h c, setConsignment_self hc, ite_self]

/-! The decision drawn. -/

/-- R109, R122, R123: the decision of a draft that carries no slip. -/
def State.drawn (s : State) (l : LaneId) (d : Draft) : Decision :=
  { s.plainDecision l d.answer.cls (d.answer.publisher.getD 0) d.answer.reason with
    key := d.key, copy := d.answer.copy, range := d.answer.range, accession := d.accession
    satisfied := d.answer.seen.satisfied, claimed := d.answer.seen.claimed }
/-- R122: the code for steering, as the open consignment's publisher code gives it. -/
theorem steeringCode_eq (s : State) (l : LaneId) (a : Answer) :
    s.steeringCode l a = ((s.consignment l).map Consignment.publisher).getD (a.publisher.getD 0) := by
  unfold State.steeringCode
  cases s.consignment l <;> rfl
theorem queryDesk_eq (s : State) (l : LaneId) (p : Nat) :
    s.queryDesk l p = s.decision.desk (((s.consignment l).map Consignment.publisher).getD p) := by
  unfold State.queryDesk
  cases s.consignment l <;> rfl
/-- The state a decision is drawn in gives the decision the state before gives, with its steering, its lane's settings and its consignment's
publisher. -/
theorem drawDecision_eq {s t : State} {l : LaneId} (steering : t.decision.steering = s.decision.steering)
    (mode : (t.lane l).mode = (s.lane l).mode) (config : (t.lane l).config = (s.lane l).config)
    (publisher : (t.consignment l).map Consignment.publisher = (s.consignment l).map Consignment.publisher) (d : Draft) :
    t.drawDecision l d .plain = s.drawn l d := by
  have desk : t.decision.desk (t.steeringCode l d.answer) = s.queryDesk l (d.answer.publisher.getD 0) := by
    rw [steeringCode_eq, queryDesk_eq, publisher]
    simp only [DecisionUnit.desk, steering]
  simp only [State.drawDecision, State.drawn, State.plainDecision, desk, mode, config]
  rfl

/-! The item DECIDED. -/

/-- R124: the lane with its READING item DECIDED, but for the count of check-fails. -/
def Lane.settledAs (v : Lane) (os : List HeldObservation) (d : Decision) : Lane :=
  { v.onReading fun i => i.settled os d with counters := { v.counters with decided := bump v.counters.decided } }
/-- R81, R124: the count of check-fails. -/
def Lane.countReason (v : Lane) (r : Option Reason) : Lane :=
  { v with counters := { v.counters with
      checkFails := if r = some .checkFail then bump v.counters.checkFails else v.counters.checkFails } }
theorem settledAs_eq {v : Lane} {i : Item} (only : ∀ j ∈ v.queue, j.state = .reading → j = i) (o : Option Observation) (d : Decision) :
    ((v.heard.ended o).settledAs ((i.ended o).observations.map HeldObservation.judged) d).countReason d.reason = v.decidedAs o d := by
  have queue : ((v.heard.ended o).settledAs ((i.ended o).observations.map HeldObservation.judged) d).queue =
      (v.decidedAs o d).queue := by
    simp only [Lane.settledAs, Lane.ended, Lane.heard, Lane.onReading, Lane.decidedAs, List.map_map]
    refine List.map_congr_left fun j hj => ?_
    by_cases reading : j.state = .reading
    · cases only j hj reading
      simp [reading, state_ended]
    · simp [reading]
  calc ((v.heard.ended o).settledAs ((i.ended o).observations.map HeldObservation.judged) d).countReason d.reason
    _ = { v.decidedAs o d with
          queue := ((v.heard.ended o).settledAs ((i.ended o).observations.map HeldObservation.judged) d).queue } := rfl
    _ = v.decidedAs o d := by rw [queue]

/-! What a decision raises. -/

theorem raiseDecision_checkFail {w : State} {l : LaneId} {v : Lane} {d : Draft} (slip : d.slip = none)
    (reason : d.answer.reason = .checkFail) (sq : Seq) (n : Nat) :
    (w.setLane l v).raiseDecision l sq n d .plain =
      (w.setLane l (v.countReason (some d.answer.reason))).files [.lane l .checkFail .event (.checkFail sq n)] := by
  simp only [State.raiseDecision, slip, reason, State.onCounters, onLane_setLane]
  rfl
theorem countReason_of_ne {r : Reason} (h : r ≠ .checkFail) (v : Lane) : v.countReason (some r) = v := by
  simp [Lane.countReason, h]
theorem raiseDecision_noAccession {w : State} {l : LaneId} {v : Lane} {d : Draft} (slip : d.slip = none)
    (reason : d.answer.reason = .noAccession) (sq : Seq) (n : Nat) :
    (w.setLane l v).raiseDecision l sq n d .plain =
      (({ w with decision := { w.decision with exhaustNotice := true } } : State).setLane l (v.countReason (some d.answer.reason))).files
        (w.exhaustionFilings l sq) := by
  rw [reason, countReason_of_ne (by decide)]
  simp only [State.raiseDecision, slip, reason, State.exhaustion, State.exhaustionFilings, setLane_fields]
  by_cases told : w.decision.exhaustNotice = true
  · have same : { w with decision := { w.decision with exhaustNotice := true } } = w := by rw [← told]
    rw [if_pos told, if_pos told, same, files_nil]
  · rw [if_neg told, if_neg told]
    rfl
theorem raiseDecision_other {w : State} {l : LaneId} {v : Lane} {d : Draft} (slip : d.slip = none)
    (checkFail : d.answer.reason ≠ .checkFail) (noAccession : d.answer.reason ≠ .noAccession) (sq : Seq) (n : Nat) :
    (w.setLane l v).raiseDecision l sq n d .plain = (w.setLane l (v.countReason (some d.answer.reason))).files [] := by
  rw [countReason_of_ne checkFail, files_nil]
  unfold State.raiseDecision
  rw [slip]
  dsimp only
  split
  · next h => exact absurd h checkFail
  · next h => exact absurd h noAccession
  · rfl

/-- R134: the state w that a finding in s leaves, once the consignment unit has counted its reason. -/
def State.counting (w s : State) (l : LaneId) (number : Option Nat) (r : Reason) : State :=
  { w with consign := (s.countMember l number (decide ((s.lane l).mode = .normal)) r).consign }
/-- R108: the decision unit takes an item as its identification finds at the lane given: w is the state the finding leaves, u what the
consignment unit's counting and the raising make of it. -/
theorem decideItem_of_identify {s w u : State} {l : LaneId} {v : Lane} {i : Item} {d : Draft} {fs : List Filing}
    (mode : v.mode = (s.lane l).mode) (config : v.config = (s.lane l).config) (slip : d.slip = none)
    (found : (s.setLane l v).identify l i.idents = (w.setLane l v, d)) (consign : w.consign = s.consign)
    (steering : w.decision.steering = s.decision.steering)
    (raises : ∀ v' : Lane, ((w.counting s l i.consignment d.answer.reason).setLane l v').raiseDecision l i.sq i.idents.length d .plain =
      (u.setLane l (v'.countReason (some d.answer.reason))).files fs) :
    (s.setLane l v).decideItem l i = ((u.setLane l ((v.settledAs (i.observations.map HeldObservation.judged) (s.drawn l d)).countReason
      (some d.answer.reason))).files fs).settleReport := by
  have idents : (s.setLane l v).identify l (identsOf (i.observations.map HeldObservation.judged)) = (w.setLane l v, d) := found
  have told : (w.setLane l v).informConsignment l i.consignment d =
      ((w.counting s l i.consignment d.answer.reason).setLane l v, .plain) := by
    simp only [State.informConsignment, slip, lane_setLane_same, mode, countMember_setLane, countMember_eq consign, State.counting]
  have drawn : ((w.counting s l i.consignment d.answer.reason).setLane l v).drawDecision l d .plain = s.drawn l d :=
    drawDecision_eq (t := (w.counting s l i.consignment d.answer.reason).setLane l v) steering (by simp [mode]) (by simp [config])
      (publisher_countMember s l _ _ _) d
  simp only [State.decideItem, idents, told, drawn, onLane_setLane]
  exact congrArg State.settleReport (raises _)
/-- R108: an ITEM END decides as its identification found, at whatever lane of the same settings it found it. -/
theorem decides_of_identify {s w u : State} {l : LaneId} {sq : Seq} {o : Option Observation} {i : Item} {d : Draft} {fs : List Filing}
    (h : s.reads l sq o i) (slip : d.slip = none)
    (found : ∀ v : Lane, v.mode = (s.lane l).mode → v.config = (s.lane l).config →
      (s.setLane l v).identify l (i.ended o).idents = (w.setLane l v, d))
    (consign : w.consign = s.consign) (steering : w.decision.steering = s.decision.steering)
    (raises : ∀ v : Lane, ((w.counting s l i.consignment d.answer.reason).setLane l v).raiseDecision l sq (i.ended o).idents.length d .plain =
      (u.setLane l (v.countReason (some d.answer.reason))).files fs) :
    Decides s l sq o (s.drawn l d) fs u := by
  refine happens_of_done ((exec_itemEnd_of_reads h).trans (congrArg State.done ?_))
  obtain ⟨active, accounts, reads, only, number, valid⟩ := h
  obtain ⟨sq_eq, consignment⟩ := ended_fields i o
  have test : (s.lane l).mode ≠ .test := fun e => by simp [e, Machine.accounts] at accounts
  rw [decideItem_of_identify (s := s) (v := (s.lane l).heard.ended o) (u := u) (fs := fs) rfl rfl slip (found _ rfl rfl) consign steering]
  · rw [feedTest_eq]
    · exact congrArg (fun v => ((u.setLane l v).files fs).settleReport) (settledAs_eq only o (s.drawn l d))
    · rw [lane_settleReport, lane_files, lane_setLane_same]
      exact test
  · rw [sq_eq, number, consignment]
    exact raises

end Sys2Proof.Machine
end

section
/-! Decisions that commit nothing, and copies of a MONOGRAPH (R29, R33, R107 to R124, R149). -/

namespace Sys2Proof.Machine

/-! What the identification finds. -/

theorem identify_failed {is : List Ident} {r : Reason} (h : choose is = .failed r) (s : State) (l : LaneId) :
    s.identify l is = (s, ⟨plainAnswer r .query, none, none, none⟩) := by
  simp only [State.identify, h]
theorem identify_key {is : List Ident} {k : Key} {e : Option Enumeration} (h : choose is = .key k e) (s : State) (l : LaneId) :
    s.identify l is = s.decideKey k e (decide ((s.lane l).mode = .normal)) := by
  simp only [State.identify, h]
/-- R107: whether a number is available to the request of a lane (R118, R120). -/
def State.offers (s : State) (normal : Bool) : Bool := if normal then s.decision.available else true
/-- R115, R118: an answer that is not MATCHED, or in a DRY lane, issues no number. -/
theorem decideKey_of_unissued {s u : State} {k : Key} {e : Option Enumeration} {normal : Bool} {a : Answer}
    (found : s.arrival k e normal (s.offers normal) = (u, a)) (h : normal = true → (a.turned (s.offers normal)).reason ≠ .matched) :
    s.decideKey k e normal = (u, ⟨a.turned (s.offers normal), some k, none, none⟩) := by
  have unissued : ¬ (normal = true ∧ (a.turned (s.offers normal)).reason = .matched) := fun both => h both.1 both.2
  unfold State.offers at *
  simp only [State.decideKey, found, unissued, if_false]
theorem turned_of_ne {a : Answer} (h : a.reason ≠ .matched) (available : Bool) : a.turned available = a := by
  simp [Answer.turned, h]
theorem decideKey_of_ne {s u : State} {k : Key} {e : Option Enumeration} {normal : Bool} {a : Answer} {r : Reason}
    (found : s.arrival k e normal (s.offers normal) = (u, a)) (reason : a.reason = r) (h : r ≠ .matched) :
    s.decideKey k e normal = (u, ⟨a, some k, none, none⟩) := by
  have same : a.turned (s.offers normal) = a := turned_of_ne (reason ▸ h) _
  rw [decideKey_of_unissued found, same]
  rw [same, reason]
  exact fun _ => h
theorem turned_true (a : Answer) : a.turned true = a := by simp [Answer.turned]
theorem offers_false (s : State) : s.offers false = true := rfl

theorem arrival_absent {s : State} {k : Key} (h : ∀ x ∈ s.table.slots, x.2.key ≠ k) (e : Option Enumeration) (normal available : Bool) :
    s.arrival k e normal available = (s, ⟨.unannounced, .query, none, none, none, .none⟩) := by
  simp only [State.arrival, lookup_eq_none h]
theorem arrival_withdrawn {s : State} {n : Nat} {r : TitleRecord} (wf : s.table.wf) (mem : (n, r) ∈ s.table.slots)
    (withdrawn : r.status = .withdrawn) (e : Option Enumeration) (normal available : Bool) :
    s.arrival r.key e normal available = (s, ⟨.withdrawn, .return_, none, none, some r.publisher, .none⟩) := by
  simp only [State.arrival, lookup_of_mem wf mem, withdrawn, if_true]
theorem arrival_monograph {s : State} {n : Nat} {r : TitleRecord} {m : MonographPart} (wf : s.table.wf) (mem : (n, r) ∈ s.table.slots)
    (standing : r.status ≠ .withdrawn) (body : r.body = .monograph m) (e : Option Enumeration) (normal available : Bool) :
    s.arrival r.key e normal available =
      s.commitIf normal available (r.copyAnswer (m.copies + 1) none) (s.commitMonograph n r m) := by
  simp only [State.arrival, lookup_of_mem wf mem, standing, if_false, body]

/-- R122: the publisher code matters to a QUERY decision alone. -/
theorem plainDecision_of_ne {cls : ItemClass} (h : cls ≠ .query) (s : State) (l : LaneId) (p q : Nat) (r : Reason) :
    s.plainDecision l cls p r = s.plainDecision l cls q r := by
  simp only [State.plainDecision, h, if_false]
/-- R134: the counting of a reason that counts nothing. -/
theorem counting_of_uncounted {s : State} {l : LaneId} {r : Reason}
    (h : ∀ c : Consignment, c.countReason (decide ((s.lane l).mode = .normal)) r = c) (number : Option Nat) :
    s.counting s l number r = s := by
  rw [State.counting, countMember_of_uncounted h]

/-- R124: an item decided for a reason that raises nothing. -/
theorem decides_of_found {s w : State} {l : LaneId} {sq : Seq} {o : Option Observation} {i : Item} {d : Draft} {r : Reason}
    (h : s.reads l sq o i) (slip : d.slip = none) (reason : d.answer.reason = r)
    (found : ∀ v : Lane, v.mode = (s.lane l).mode → v.config = (s.lane l).config →
      (s.setLane l v).identify l (i.ended o).idents = (w.setLane l v, d))
    (checkFail : r ≠ .checkFail) (noAccession : r ≠ .noAccession) (consign : w.consign = s.consign := by rfl)
    (steering : w.decision.steering = s.decision.steering := by rfl) :
    Decides s l sq o (s.drawn l d) [] (w.counting s l i.consignment r) := by
  subst reason
  exact decides_of_identify h slip found consign steering fun _ => raiseDecision_other slip checkFail noAccession sq _

/-- Settles O45: a failed choice, a key without a record, and a tombstone; then the desk and the outlets as they are looked up. -/
theorem decisionsThatCommitNothing : Obligations.DecisionsThatCommitNothing := by
  refine ⟨fun s l sq o i r reads failed => ?failed, fun s l sq o i k e reads key absent => ?absent,
    fun s l sq o i e n r reads key wf mem withdrawn => ?tombstone, fun d p i hi => ?desk,
    fun m => ⟨rfl, rfl, rfl, rfl, rfl, rfl, rfl, rfl, rfl, rfl⟩⟩
  case failed =>
    by_cases checkFail : r = .checkFail
    · rw [if_pos checkFail]
      exact decides_of_identify (d := ⟨plainAnswer r .query, none, none, none⟩) reads rfl (fun v _ _ => identify_failed failed _ l) rfl rfl
        fun v => raiseDecision_checkFail rfl checkFail sq _
    · rw [if_neg checkFail]
      have noAccession : r ≠ .noAccession := by
        obtain rfl | ⟨-, rfl⟩ | ⟨-, -, rfl⟩ := choose_eq_failed failed <;> decide
      exact decides_of_found (d := ⟨plainAnswer r .query, none, none, none⟩) reads rfl rfl
        (fun v _ _ => identify_failed failed _ l) checkFail noAccession
  case absent =>
    refine decides_of_found (d := ⟨⟨.unannounced, .query, none, none, none, .none⟩, some k, none, none⟩) reads rfl rfl (fun v _ _ => ?_)
      (by decide) (by decide)
    exact (identify_key key _ l).trans (decideKey_of_ne (r := .unannounced) (arrival_absent (s := s.setLane l v) absent _ _ _) rfl (by decide))
  case tombstone =>
    have uncounted := counting_of_uncounted (s := s) (l := l) (r := .withdrawn) (fun _ => rfl) i.consignment
    rw [plainDecision_of_ne (by decide) s l 0 r.publisher]
    refine (congrArg (Decides s l sq o _ []) uncounted).mp <| decides_of_found
      (d := ⟨⟨.withdrawn, .return_, none, none, some r.publisher, .none⟩, some r.key, none, none⟩) reads rfl rfl (fun v _ _ => ?_)
      (by decide) (by decide)
    exact (identify_key key _ l).trans
      (decideKey_of_ne (r := .withdrawn) (arrival_withdrawn (s := s.setLane l v) wf mem withdrawn _ _ _) rfl (by decide))
  case desk =>
    simp only [DecisionUnit.desk, ← hi]
    rfl

/-! A copy of a MONOGRAPH. -/

theorem copyAnswer_matched {r : TitleRecord} {k : Nat} (h : k ≤ r.q) (range : Option (Nat × Nat)) :
    r.copyAnswer k range = ⟨.matched, r.planClass k, some k, range, some r.publisher, .none⟩ := if_pos h
theorem copyAnswer_surplus {r : TitleRecord} {k : Nat} (h : r.q < k) (range : Option (Nat × Nat)) :
    r.copyAnswer k range = ⟨.surplus, .return_, some k, range, some r.publisher, .none⟩ := if_neg (Nat.not_le.2 h)
theorem planClass_of_entry {r : TitleRecord} {k : Nat} {ch : Chute} (h : r.plan[k]? = some ch) : r.planClass (k + 1) = ch.cls := by
  simp only [TitleRecord.planClass, Nat.add_sub_cancel, h]
theorem cls_ne_query (ch : Chute) : ch.cls ≠ .query := by
  cases ch <;> decide

theorem deviceNotice_setLane (s : State) (l : LaneId) (v : Lane) (c : NoticeCondition) (e : Edge) (d : Detail) :
    (s.setLane l v).deviceNotice c e d = (s.deviceNotice c e d).setLane l v := by
  simp only [State.deviceNotice, State.ask, setLane_fields]
  split
  · split <;> rfl
  · rfl
theorem withClaims_setLane (s : State) (l : LaneId) (v : Lane) (c : ClaimList) :
    (s.setLane l v).withClaims c = (s.withClaims c).setLane l v := by
  simp only [State.withClaims, setLane_fields]
  split
  · rfl
  · exact deviceNotice_setLane { s with claims := c } l v _ _ _
/-- R156: a claim list left as it is gives no edge. -/
theorem withClaims_self (s : State) : s.withClaims s.claims = s := by
  simp [State.withClaims]

/-- R149: what a committed copy shows of the monograph claim. -/
def MonographPart.seen (m : MonographPart) (q : Nat) : Indications :=
  ⟨decide (q ≤ min (m.copies + 1) 15 ∧ m.claim = .listed), decide (q ≤ min (m.copies + 1) 15 ∧ m.claim = .taken)⟩
/-- R33, R149: the commit of a copy: the claim list, the record in its slot, and the two indications. -/
theorem commitMonograph_eq (s : State) (n : Nat) (r : TitleRecord) (m : MonographPart) :
    s.commitMonograph n r m =
      ({ s.withClaims (s.claims.copyArrived r m) with table := s.table.place n (r.arrived m s.table.today) }, m.seen r.q) := by
  by_cases enough : r.q ≤ min (m.copies + 1) 15
  · have arrived : r.arrived m s.table.today = { r with
        status := .complete, lastArrival := some s.table.today
        body := .monograph { m with copies := min (m.copies + 1) 15, claim := .none } } := by
      simp only [TitleRecord.arrived, enough, if_true]
    rw [arrived]
    simp only [State.commitMonograph, Config.copiesMax, enough, if_true]
    cases claim : m.claim with
    | listed => simp [State.satisfyMonograph, State.putRecord, MonographPart.seen, ClaimList.copyArrived, ClaimList.removeMonograph, claim, enough]
    | taken | owed | none =>
      simp [State.satisfyMonograph, State.putRecord, MonographPart.seen, ClaimList.copyArrived, claim, enough, withClaims_self, Indications.none]
  · have arrived : r.arrived m s.table.today = { r with
        lastArrival := some s.table.today, body := .monograph { m with copies := min (m.copies + 1) 15 } } := by
      simp only [TitleRecord.arrived, enough, if_false]
    have claims : s.claims.copyArrived r m = s.claims := if_neg fun both => enough both.1
    have seen : m.seen r.q = .none := by simp [MonographPart.seen, enough, Indications.none]
    rw [arrived, claims, withClaims_self, seen]
    simp only [State.commitMonograph, Config.copiesMax, enough, if_false]
    rfl

/-- R33: the part after a committed copy. -/
def State.copyCommitted (s : State) (n : Nat) (r : TitleRecord) (m : MonographPart) : State :=
  { s.withClaims (s.claims.copyArrived r m) with table := s.table.place n (r.arrived m s.table.today) }
theorem copyCommitted_fields (s : State) (n : Nat) (r : TitleRecord) (m : MonographPart) :
    (s.copyCommitted n r m).consign = s.consign ∧ (s.copyCommitted n r m).decision = s.decision := by
  simp [State.copyCommitted]
theorem copyCommitted_puts {s : State} {n : Nat} {r : TitleRecord} (wf : s.table.wf) (mem : (n, r) ∈ s.table.slots) (m : MonographPart) :
    s.table.putsRecord (s.table.place n (r.arrived m s.table.today)) n (r.arrived m s.table.today) :=
  place_puts_of_mem wf mem rfl
theorem commitMonograph_setLane (s : State) (l : LaneId) (v : Lane) (n : Nat) (r : TitleRecord) (m : MonographPart) :
    (s.setLane l v).commitMonograph n r m = ((s.copyCommitted n r m).setLane l v, m.seen r.q) := by
  rw [commitMonograph_eq]
  simp only [setLane_fields, withClaims_setLane]
  rfl
/-- R117: the next number issued. -/
theorem issue_of_next {d : DecisionUnit} {a : Nat} (h : d.next = some a) :
    d.issue = ({ d with next := some (a + 1), last := some a }, some a) := by
  simp only [DecisionUnit.issue, h]
theorem decideKey_of_issued {s u : State} {k : Key} {e : Option Enumeration} {a : Answer} {x : Nat}
    (available : s.decision.available = true) (found : s.arrival k e true true = (u, a)) (matched : a.reason = .matched)
    (next : u.decision.next = some x) : s.decideKey k e true =
      ({ u with decision := { u.decision with next := some (x + 1), last := some x } }, ⟨a, some k, some x, none⟩) := by
  simp only [State.decideKey, if_true, available, found, turned_true, matched, and_self, issue_of_next next]
theorem available_of_next {d : DecisionUnit} {a : Nat} (next : d.next = some a) (h : a ≤ 99999999) : d.available = true := by
  simp only [DecisionUnit.available, next]
  exact decide_eq_true h
theorem unavailable_of_next {d : DecisionUnit} (h : ∀ a, d.next = some a → 99999999 < a) : d.available = false := by
  unfold DecisionUnit.available
  split
  · next a next => exact decide_eq_false (Nat.not_le.2 (h a next))
  · rfl

/-- R32: the request of a NORMAL lane for a copy that commits. -/
theorem arrival_committed {s : State} (l : LaneId) (v : Lane) {n : Nat} {r : TitleRecord} {m : MonographPart} {a : Answer}
    (wf : s.table.wf) (mem : (n, r) ∈ s.table.slots) (standing : r.status ≠ .withdrawn) (body : r.body = .monograph m)
    (answer : r.copyAnswer (m.copies + 1) none = a) (e : Option Enumeration) {available : Bool}
    (h : commits true available a.reason = true) :
    (s.setLane l v).arrival r.key e true available = ((s.copyCommitted n r m).setLane l v, { a with seen := m.seen r.q }) := by
  rw [arrival_monograph (s := s.setLane l v) wf mem standing body, answer, State.commitIf, if_pos h, commitMonograph_setLane]
/-- R32: a request that does not commit. -/
theorem arrival_uncommitted {s : State} {n : Nat} {r : TitleRecord} {m : MonographPart} {a : Answer} (wf : s.table.wf)
    (mem : (n, r) ∈ s.table.slots) (standing : r.status ≠ .withdrawn) (body : r.body = .monograph m)
    (answer : r.copyAnswer (m.copies + 1) none = a) (e : Option Enumeration) {normal available : Bool}
    (h : commits normal available a.reason = false) : s.arrival r.key e normal available = (s, a) := by
  rw [arrival_monograph wf mem standing body, answer, State.commitIf, h, if_neg Bool.false_ne_true]
/-- R118: a copy within Q with no number left. -/
theorem decideKey_exhausted {s : State} {n : Nat} {r : TitleRecord} {m : MonographPart} (wf : s.table.wf) (mem : (n, r) ∈ s.table.slots)
    (standing : r.status ≠ .withdrawn) (body : r.body = .monograph m) (within : m.copies + 1 ≤ r.q) (exhausted : s.offers true = false)
    (e : Option Enumeration) : s.decideKey r.key e true =
      (s, ⟨⟨.noAccession, .query, some (m.copies + 1), none, some r.publisher, .none⟩, some r.key, none, none⟩) := by
  have found := arrival_uncommitted (normal := true) wf mem standing body (copyAnswer_matched within none) e
    (congrArg (commits true · .matched) exhausted)
  have turned : Answer.turned ⟨.matched, r.planClass (m.copies + 1), some (m.copies + 1), none, some r.publisher, .none⟩ (s.offers true) =
      ⟨.noAccession, .query, some (m.copies + 1), none, some r.publisher, .none⟩ := congrArg (Answer.turned _) exhausted
  rw [decideKey_of_unissued found, turned]
  rw [turned]
  exact fun _ h => nomatch h
/-- R120: a DRY lane decides a copy as a NORMAL lane with a number would, and commits nothing. -/
theorem decideKey_dry {s : State} {n : Nat} {r : TitleRecord} {m : MonographPart} (wf : s.table.wf) (mem : (n, r) ∈ s.table.slots)
    (standing : r.status ≠ .withdrawn) (body : r.body = .monograph m) (e : Option Enumeration) :
    s.decideKey r.key e false = (s, ⟨r.copyAnswer (m.copies + 1) none, some r.key, none, none⟩) := by
  have found := arrival_uncommitted (normal := false) (available := true) wf mem standing body rfl e rfl
  rw [decideKey_of_unissued found (fun h => nomatch h), offers_false, turned_true]

/-- R120, R134: the decision of a copy in a DRY lane. -/
theorem decides_dryCopy {s : State} {l : LaneId} {sq : Seq} {o : Option Observation} {i : Item} {e : Option Enumeration} {n : Nat}
    {r : TitleRecord} {m : MonographPart} {cls : ItemClass} {reason : Reason} (h : s.readsTitle l sq o i e n r)
    (body : r.body = .monograph m) (mode : (s.lane l).mode = .dry)
    (answer : r.copyAnswer (m.copies + 1) none = ⟨reason, cls, some (m.copies + 1), none, some r.publisher, .none⟩)
    (notQuery : cls ≠ .query) (copy : reason = .matched ∨ reason = .surplus) :
    Decides s l sq o { s.plainDecision l cls 0 reason with key := some r.key, copy := some (m.copies + 1) } [] s := by
  obtain ⟨reads, key, wf, mem, standing⟩ := h
  have notNormal : decide ((s.lane l).mode = .normal) = false := by rw [mode]; rfl
  have uncounted : s.counting s l i.consignment reason = s := by
    refine counting_of_uncounted (fun c => ?_) _
    rw [notNormal]
    obtain rfl | rfl := copy <;> rfl
  have decides := decides_of_found (w := s) (r := reason)
    (d := ⟨⟨reason, cls, some (m.copies + 1), none, some r.publisher, .none⟩, some r.key, none, none⟩) reads rfl rfl (fun v hv _ => by
      rw [identify_key key, lane_setLane_same, hv, notNormal, ← answer]
      exact decideKey_dry (s := s.setLane l v) wf mem standing body e)
    (by obtain rfl | rfl := copy <;> decide) (by obtain rfl | rfl := copy <;> decide)
  rw [uncounted] at decides
  rw [plainDecision_of_ne notQuery s l 0 r.publisher]
  exact decides

/-- Settles O46: MATCHED, SURPLUS and NO ACCESSION in a NORMAL lane, then either in a DRY one. -/
theorem monographCopiesAreDecided : Obligations.MonographCopiesAreDecided := by
  refine ⟨fun s l sq o i e n a r m ch reads body mode within entry next last => ?matched,
    fun s l sq o i e n r m reads body mode beyond => ?surplus, fun s l sq o i e n r m reads body mode within exhausted => ?noAccession,
    fun s l sq o i e n r m cls reason reads body mode outcome => ?dry⟩ <;>
  obtain ⟨reads, key, wf, mem, standing⟩ := reads
  case matched =>
    have answer := copyAnswer_matched within none
    rw [planClass_of_entry entry] at answer
    obtain ⟨consign, decision⟩ := copyCommitted_fields s n r m
    have normal : decide ((s.lane l).mode = .normal) = true := decide_eq_true mode
    refine ⟨_, copyCommitted_puts wf mem m, ?_⟩
    rw [plainDecision_of_ne (cls_ne_query ch) s l 0 r.publisher, ← normal]
    refine decides_of_found
      (w := { s.copyCommitted n r m with decision := { s.decision with next := some (a + 1), last := some a } })
      (d := ⟨⟨.matched, ch.cls, some (m.copies + 1), none, some r.publisher, m.seen r.q⟩, some r.key, some a, none⟩)
      reads rfl rfl (fun v hv _ => ?_) (by decide) (by decide) consign rfl
    rw [identify_key key, lane_setLane_same, hv, normal]
    refine (decideKey_of_issued (s := s.setLane l v) (available_of_next next last)
      (arrival_committed l v wf mem standing body answer e rfl) rfl (x := a) ?_).trans ?_
    · exact (congrArg DecisionUnit.next decision).trans next
    · simp only [setLane_fields, decision]
      rfl
  case surplus =>
    have answer := copyAnswer_surplus beyond none
    obtain ⟨consign, decision⟩ := copyCommitted_fields s n r m
    have normal : decide ((s.lane l).mode = .normal) = true := decide_eq_true mode
    refine ⟨_, copyCommitted_puts wf mem m, ?_⟩
    rw [plainDecision_of_ne (by decide) s l 0 r.publisher, ← normal]
    refine decides_of_found (w := s.copyCommitted n r m)
      (d := ⟨⟨.surplus, .return_, some (m.copies + 1), none, some r.publisher, m.seen r.q⟩, some r.key, none, none⟩)
      reads rfl rfl (fun v hv _ => ?_) (by decide) (by decide) consign (by rw [decision])
    rw [identify_key key, lane_setLane_same, hv, normal]
    refine (decideKey_of_ne (r := .surplus) (arrival_committed l v wf mem standing body answer e rfl) rfl (by decide)).trans rfl
  case noAccession =>
    have normal : decide ((s.lane l).mode = .normal) = true := decide_eq_true mode
    have uncounted := counting_of_uncounted (s := s) (l := l) (r := .noAccession) (fun _ => rfl) i.consignment
    have none_left : s.offers true = false := unavailable_of_next exhausted
    refine decides_of_identify (w := s)
      (d := ⟨⟨.noAccession, .query, some (m.copies + 1), none, some r.publisher, .none⟩, some r.key, none, none⟩)
      reads rfl (fun v hv _ => ?_) rfl rfl fun v => ?_
    · rw [identify_key key, lane_setLane_same, hv, normal]
      exact decideKey_exhausted (s := s.setLane l v) wf mem standing body within none_left e
    · rw [uncounted]
      exact raiseDecision_noAccession rfl rfl sq _
  case dry =>
    obtain ⟨within, rfl, ch, entry, rfl⟩ | ⟨beyond, rfl, rfl⟩ := outcome
    · have answer := copyAnswer_matched within none
      rw [planClass_of_entry entry] at answer
      exact decides_dryCopy ⟨reads, key, wf, mem, standing⟩ body mode answer (cls_ne_query ch) (.inl rfl)
    · exact decides_dryCopy ⟨reads, key, wf, mem, standing⟩ body mode (copyAnswer_surplus beyond none) (by decide) (.inr rfl)

end Sys2Proof.Machine
end

section
/-! SET RUN (R57). -/

namespace Sys2Proof.Machine

theorem exec_setRun (tag : Byte) (body : Body SetRunFields) (s : State) :
    exec (.setRun tag body) s = s.command 0x16#8 tag body fun f s => s.runSetRun f := rfl

/-! The checks, in their order, and the effect. -/

theorem runSetRun_above {f : SetRunFields} {k : Key} (key : keyOf f.key = some k) (above : 65535999 < f.base.toNat) (s : State) :
    s.runSetRun f = (s, .refused .invalid .none) := by
  simp only [State.runSetRun, withKey_some key, Config.maxOrdinal, above, if_true, refuse]
theorem runSetRun_absent {f : SetRunFields} {k : Key} {s : State} (h : s.lacks f.key k) (within : f.base.toNat ≤ 65535999) :
    s.runSetRun f = (s, .refused .notFound .none) := by
  obtain ⟨key, absent⟩ := lookup_of_lacks h
  simp only [State.runSetRun, withKey_some key, Config.maxOrdinal, Nat.not_lt.2 within, if_false, absent, refuse]
theorem runSetRun_withdrawn {f : SetRunFields} {n : Nat} {r : TitleRecord} {s : State} (h : s.finds f.key n r)
    (within : f.base.toNat ≤ 65535999) (withdrawn : r.status = .withdrawn) : s.runSetRun f = (s, .refused .badState .none) := by
  obtain ⟨key, found⟩ := lookup_of_finds h
  simp only [State.runSetRun, withKey_some key, Config.maxOrdinal, Nat.not_lt.2 within, if_false, found, withdrawn, if_true, refuse]
theorem runSetRun_monograph {f : SetRunFields} {n : Nat} {r : TitleRecord} {m : MonographPart} {s : State} (h : s.finds f.key n r)
    (within : f.base.toNat ≤ 65535999) (standing : r.status ≠ .withdrawn) (body : r.body = .monograph m) :
    s.runSetRun f = (s, .refused .invalid .none) := by
  obtain ⟨key, found⟩ := lookup_of_finds h
  simp only [State.runSetRun, withKey_some key, Config.maxOrdinal, Nat.not_lt.2 within, if_false, found, standing, body, refuse]
theorem runSetRun_serial {f : SetRunFields} {n : Nat} {r : TitleRecord} {p : SerialPart} {s : State} (h : s.finds f.key n r)
    (within : f.base.toNat ≤ 65535999) (standing : r.status ≠ .withdrawn) (body : r.body = .serial p) :
    s.runSetRun f =
      (s.putRecord n { r with body := .serial (p.reposition f.base.toNat) }, .done (.run n p.w p.h f.base.toNat)) := by
  obtain ⟨key, found⟩ := lookup_of_finds h
  simp only [State.runSetRun, withKey_some key, Config.maxOrdinal, Nat.not_lt.2 within, if_false, found, standing, body]

/-- Settles O22: the five checks in their order, then the record repositioned in its slot. -/
theorem setRunRepositionsTheWindow : Obligations.SetRunRepositionsTheWindow := by
  refine ⟨fun tag f s hs bad => ?key, fun tag f k s hs key above => ?above, fun tag f k s hs lacks within => ?absent,
    fun tag f n r s hs finds within withdrawn => ?withdrawn, fun tag f n r s hs finds within standing kind => ?monograph,
    fun tag f n r p s hs finds within standing body => ?serial⟩
  case key => exact refuses_of_command (exec_setRun tag _ s) rfl hs fun t _ => withKey_none bad t _
  case above => exact refuses_of_command (exec_setRun tag _ s) rfl hs fun t _ => runSetRun_above key above t
  case absent =>
    refine refuses_of_command (exec_setRun tag _ s) rfl hs fun t ht => runSetRun_absent (k := k) ?_ within
    rw [ht]
    exact lacks
  case withdrawn =>
    refine refuses_of_command (exec_setRun tag _ s) rfl hs fun t ht => runSetRun_withdrawn (n := n) (r := r) ?_ within withdrawn
    rw [ht]
    exact finds
  case monograph =>
    cases body : r.body with
    | serial p => exact absurd kind (by simp [kind_serial body])
    | monograph m =>
      refine refuses_of_command (exec_setRun tag _ s) rfl hs fun t ht => runSetRun_monograph (n := n) ?_ within standing body
      rw [ht]
      exact finds
  case serial =>
    exact ⟨s.table.place n { r with body := .serial (p.reposition f.base.toNat) }, place_puts_of_mem finds.1 finds.2.1 rfl,
      takes_of_block (exec_setRun tag _ s) hs (runSetRun_serial (s := s.onLink .countFrame) finds within standing body)⟩

end Sys2Proof.Machine
end

section
/-! Issues of a SERIAL that commit nothing (R38, R39, R41, R46, R52, R55, R56, R115, R118, R120). -/

namespace Sys2Proof.Machine

/-! The enumeration and its first ordinal. -/

theorem misread_some_iff (p : SerialPart) (x : Enumeration) :
    p.misread (some x) ↔ (x.span.toNat < 1 ∨ 4 < x.span.toNat) ∨
      0 < p.p ∧ (x.volume.toNat < p.vb ∨ x.issue.toNat < 1 ∨ p.p < x.issue.toNat) := by
  simp [SerialPart.misread, or_assoc]
/-- R39: a misread enumeration has no first ordinal. -/
theorem ordinal_of_misread {p : SerialPart} {x : Enumeration} (h : p.misread (some x)) : p.ordinal x = none := by
  rw [misread_some_iff] at h
  unfold SerialPart.ordinal
  obtain span | ⟨volumes, outside⟩ := h
  · rw [if_pos span]
  · rw [if_neg volumes.ne', if_pos outside, ite_self]
/-- R38: the first ordinal of any other. -/
theorem ordinal_of_read {p : SerialPart} {x : Enumeration} (h : ¬ p.misread (some x)) : p.ordinal x = some (p.firstOrdinal x) := by
  rw [misread_some_iff, not_or] at h
  obtain ⟨span, inside⟩ := h
  unfold SerialPart.ordinal SerialPart.firstOrdinal
  rw [if_neg span]
  obtain free | volumes := Nat.eq_zero_or_pos p.p
  · rw [if_pos free, if_pos free]
  · rw [if_neg volumes.ne', if_neg volumes.ne', if_neg fun outside => inside ⟨volumes, outside⟩]
theorem span_of_read {p : SerialPart} {x : Enumeration} (h : ¬ p.misread (some x)) : 1 ≤ x.span.toNat ∧ x.span.toNat ≤ 4 := by
  rw [misread_some_iff] at h
  omega
theorem suspect_iff (p : SerialPart) (n : Nat) : p.suspect n = true ↔ p.tooFar n := by
  unfold SerialPart.suspect SerialPart.tooFar
  cases p.h <;> exact decide_eq_true_iff

/-! The result, settled from the record as found. -/

theorem settle_late {p : SerialPart} {n span : Nat} (behind : n + span - 1 < p.w) (q : Nat) : p.settle q n span = .late := by
  have none : (coveredBy n span).find? (fun x => decide (p.w ≤ x)) = none := by
    rw [List.find?_eq_none]
    intro x hx
    simp only [coveredBy, List.mem_range'_1] at hx
    simp only [decide_eq_true_eq]
    omega
  simp only [SerialPart.settle, none]
/-- R46: the first covered ordinal that is not behind. -/
theorem find_live {w n span : Nat} (reaches : w ≤ n + span - 1) (covers : 1 ≤ span) :
    (coveredBy n span).find? (fun x => decide (w ≤ x)) = some (max w n) := by
  have split : coveredBy n span =
      List.range' n (max w n - n) ++ max w n :: List.range' (max w n + 1) (n + span - (max w n + 1)) := by
    rw [← List.range'_succ, coveredBy]
    calc List.range' n span
      _ = List.range' n (max w n - n + (n + span - (max w n + 1) + 1)) := by congr 1; omega
      _ = _ := by rw [← List.range'_append_1, Nat.add_sub_cancel' (Nat.le_max_right w n)]
  refine List.find?_eq_some_iff_append.2 ⟨decide_eq_true (Nat.le_max_left _ _), _, _, split, fun x hx => ?_⟩
  simp only [List.mem_range'_1] at hx
  simp only [Bool.not_eq_true', decide_eq_false_iff_not]
  omega
/-- R48: the copy ordinal of an arrival that is not wholly behind. -/
theorem settle_live {p : SerialPart} {n span : Nat} (reaches : p.w ≤ n + span - 1) (covers : 1 ≤ span) (q : Nat) :
    p.settle q n span = if p.copyOrdinal n ≤ q then .matched (p.copyOrdinal n) else .surplus (p.copyOrdinal n) := by
  simp only [SerialPart.settle, find_live reaches covers]
  rfl

/-! The request against a SERIAL record. -/

/-- R19: slot n holds the record r of a SERIAL with the serial part p, not a tombstone. -/
def State.shelves (s : State) (n : Nat) (r : TitleRecord) (p : SerialPart) : Prop :=
  s.table.wf ∧ (n, r) ∈ s.table.slots ∧ r.status ≠ .withdrawn ∧ r.body = .serial p
theorem shelves_setLane {s : State} {n : Nat} {r : TitleRecord} {p : SerialPart} (h : s.shelves n r p) (l : LaneId) (v : Lane) :
    (s.setLane l v).shelves n r p := h

/-- R46, R52: the answer to an issue of first ordinal n and last ordinal last: LATE ISSUE behind the window, else that of its copy. -/
def TitleRecord.issueAnswer (r : TitleRecord) (p : SerialPart) (n last : Nat) : Answer :=
  if last < p.w then ⟨.lateIssue, .serials, none, some (n, last), some r.publisher, .none⟩
  else r.copyAnswer (p.copyOrdinal n) (some (n, last))
theorem issueAnswer_late {p : SerialPart} {n last : Nat} (behind : last < p.w) (r : TitleRecord) :
    r.issueAnswer p n last = ⟨.lateIssue, .serials, none, some (n, last), some r.publisher, .none⟩ := if_pos behind
theorem issueAnswer_matched {r : TitleRecord} {p : SerialPart} {n last : Nat} (reaches : p.w ≤ last) (within : p.copyOrdinal n ≤ r.q) :
    r.issueAnswer p n last =
      ⟨.matched, r.planClass (p.copyOrdinal n), some (p.copyOrdinal n), some (n, last), some r.publisher, .none⟩ :=
  (if_neg (Nat.not_lt.2 reaches)).trans (copyAnswer_matched within _)
theorem issueAnswer_surplus {r : TitleRecord} {p : SerialPart} {n last : Nat} (reaches : p.w ≤ last) (beyond : r.q < p.copyOrdinal n) :
    r.issueAnswer p n last = ⟨.surplus, .return_, some (p.copyOrdinal n), some (n, last), some r.publisher, .none⟩ :=
  (if_neg (Nat.not_lt.2 reaches)).trans (copyAnswer_surplus beyond _)
/-- R16: the plan's entry for the copy of an issue. -/
theorem planClass_of_copy {r : TitleRecord} {p : SerialPart} {n : Nat} {ch : Chute} (h : r.plan[p.copyOrdinal n - 1]? = some ch) :
    r.planClass (p.copyOrdinal n) = ch.cls := by
  simp only [TitleRecord.planClass, h]

theorem arrival_serial {s : State} {n : Nat} {r : TitleRecord} {p : SerialPart} (h : s.shelves n r p) (e : Option Enumeration)
    (normal available : Bool) : s.arrival r.key e normal available = s.serialArrival n r p e normal available := by
  obtain ⟨wf, mem, standing, body⟩ := h
  simp only [State.arrival, lookup_of_mem wf mem, standing, if_false, body]
theorem arrival_misread {s : State} {n : Nat} {r : TitleRecord} {p : SerialPart} (h : s.shelves n r p) {e : Option Enumeration}
    (misread : p.misread e) (normal available : Bool) :
    s.arrival r.key e normal available = (s, ⟨.enumerationError, .query, none, none, some r.publisher, .none⟩) := by
  rw [arrival_serial h, State.serialArrival]
  cases e with
  | none => rfl
  | some x => simp only [Option.bind_some, ordinal_of_misread misread, Option.map_none]
theorem arrival_suspect {s : State} {n : Nat} {r : TitleRecord} {p : SerialPart} (h : s.shelves n r p) {x : Enumeration}
    (read : ¬ p.misread (some x)) (far : p.tooFar (p.firstOrdinal x)) (normal available : Bool) :
    s.arrival r.key (some x) normal available = (s, ⟨.enumerationSuspect, .query, none,
      some (p.firstOrdinal x, p.firstOrdinal x + x.span.toNat - 1), some r.publisher, .none⟩) := by
  rw [arrival_serial h, State.serialArrival]
  simp only [Option.bind_some, ordinal_of_read read, Option.map_some, (suspect_iff p _).2 far, if_true]
/-- R45: an issue whose enumeration stands, answered and committed as its answer says. -/
theorem arrival_issue {s : State} {n first last : Nat} {r : TitleRecord} {p : SerialPart} (h : s.shelves n r p) {x : Enumeration}
    (read : ¬ p.misread (some x)) (first_eq : first = p.firstOrdinal x) (last_eq : last = first + x.span.toNat - 1)
    (near : ¬ p.tooFar first) (normal available : Bool) :
    s.arrival r.key (some x) normal available =
      s.commitIf normal available (r.issueAnswer p first last) (s.commitSerial n r p first x.span.toNat) := by
  subst first_eq last_eq
  rw [← suspect_iff] at near
  rw [arrival_serial h, State.serialArrival]
  simp only [Option.bind_some, ordinal_of_read read, Option.map_some, near, Bool.false_eq_true, if_false]
  by_cases behind : p.firstOrdinal x + x.span.toNat - 1 < p.w
  · simp only [settle_late behind, issueAnswer_late behind]
  · have reaches := Nat.not_lt.1 behind
    rw [settle_live reaches (span_of_read read).1]
    obtain beyond | within := Nat.lt_or_ge r.q (p.copyOrdinal (p.firstOrdinal x))
    · simp only [Nat.not_le.2 beyond, if_false, issueAnswer_surplus reaches beyond, copyAnswer_surplus beyond]
    · simp only [within, if_true, issueAnswer_matched reaches within, copyAnswer_matched within]

/-! What is decided. -/

/-- R108: a key whose request commits nothing, decided for a reason that counts and raises nothing. -/
theorem decides_uncommitted {s : State} {l : LaneId} {sq : Seq} {o : Option Observation} {i : Item} {k : Key} {e : Option Enumeration}
    {a : Answer} {r : Reason} (reads : s.reads l sq o i) (key : choose (i.ended o).idents = .key k e) (reason : a.reason = r)
    (found : ∀ v, (s.setLane l v).decideKey k e (decide ((s.lane l).mode = .normal)) = (s.setLane l v, ⟨a, some k, none, none⟩))
    (uncounted : ∀ c : Consignment, c.countReason (decide ((s.lane l).mode = .normal)) r = c)
    (checkFail : r ≠ .checkFail) (noAccession : r ≠ .noAccession) :
    Decides s l sq o (s.drawn l ⟨a, some k, none, none⟩) [] s := by
  have decides := decides_of_found (w := s) (d := ⟨a, some k, none, none⟩) reads rfl reason
    (fun v hv _ => by rw [identify_key key, lane_setLane_same, hv]; exact found v) checkFail noAccession
  rwa [counting_of_uncounted uncounted] at decides
/-- R120: a DRY lane decides an issue as a NORMAL lane with a number would, and commits nothing. -/
theorem decideKey_dryIssue {s : State} {n : Nat} {r : TitleRecord} {p : SerialPart} (h : s.shelves n r p) {x : Enumeration}
    (read : ¬ p.misread (some x)) (near : ¬ p.tooFar (p.firstOrdinal x)) : s.decideKey r.key (some x) false =
      (s, ⟨r.issueAnswer p (p.firstOrdinal x) (p.firstOrdinal x + x.span.toNat - 1), some r.key, none, none⟩) := by
  have found := arrival_issue h read rfl rfl near false (s.offers false)
  rw [decideKey_of_unissued found (fun normal => nomatch normal), offers_false, turned_true]
/-- R118: an issue within Q with no number left. -/
theorem decideKey_exhaustedIssue {s : State} {n : Nat} {r : TitleRecord} {p : SerialPart} (h : s.shelves n r p) {x : Enumeration}
    {last : Nat} (read : ¬ p.misread (some x)) (last_eq : last = p.firstOrdinal x + x.span.toNat - 1)
    (near : ¬ p.tooFar (p.firstOrdinal x)) (reaches : p.w ≤ last) (within : p.copyOrdinal (p.firstOrdinal x) ≤ r.q)
    (exhausted : s.offers true = false) : s.decideKey r.key (some x) true =
      (s, ⟨⟨.noAccession, .query, some (p.copyOrdinal (p.firstOrdinal x)), some (p.firstOrdinal x, last), some r.publisher, .none⟩,
        some r.key, none, none⟩) := by
  have found : s.arrival r.key (some x) true (s.offers true) = (s, r.issueAnswer p (p.firstOrdinal x) last) := by
    rw [arrival_issue h read rfl last_eq near, issueAnswer_matched reaches within, exhausted]
    rfl
  have turned : (r.issueAnswer p (p.firstOrdinal x) last).turned (s.offers true) =
      ⟨.noAccession, .query, some (p.copyOrdinal (p.firstOrdinal x)), some (p.firstOrdinal x, last), some r.publisher, .none⟩ := by
    rw [issueAnswer_matched reaches within, exhausted]
    rfl
  rw [decideKey_of_unissued found, turned]
  rw [turned]
  exact fun _ matched => nomatch matched
/-- R120: the decision of an issue in a DRY lane. -/
theorem decides_dryIssue {s : State} {l : LaneId} {sq : Seq} {o : Option Observation} {i : Item} {x : Enumeration} {n : Nat}
    {r : TitleRecord} {p : SerialPart} {cls : ItemClass} {reason : Reason} {copy : Option Nat} (h : s.readsTitle l sq o i (some x) n r)
    (body : r.body = .serial p) (read : ¬ p.misread (some x)) (near : ¬ p.tooFar (p.firstOrdinal x)) (mode : (s.lane l).mode = .dry)
    (answer : r.issueAnswer p (p.firstOrdinal x) (p.firstOrdinal x + x.span.toNat - 1) =
      ⟨reason, cls, copy, some (p.firstOrdinal x, p.firstOrdinal x + x.span.toNat - 1), some r.publisher, .none⟩)
    (notQuery : cls ≠ .query) (result : reason = .lateIssue ∨ reason = .matched ∨ reason = .surplus) :
    Decides s l sq o
      { s.plainDecision l cls 0 reason with
        key := some r.key, copy := copy, range := some (p.firstOrdinal x, p.firstOrdinal x + x.span.toNat - 1) } [] s := by
  obtain ⟨reads, key, wf, mem, standing⟩ := h
  have notNormal : decide ((s.lane l).mode = .normal) = false := by rw [mode]; rfl
  rw [plainDecision_of_ne notQuery s l 0 r.publisher]
  refine decides_uncommitted (a := ⟨reason, cls, copy, some (p.firstOrdinal x, p.firstOrdinal x + x.span.toNat - 1), some r.publisher,
    .none⟩) (r := reason) reads key rfl (fun v => ?_) (fun c => ?_) ?_ ?_
  · rw [notNormal, ← answer]
    exact decideKey_dryIssue (shelves_setLane ⟨wf, mem, standing, body⟩ l v) read near
  · rw [notNormal]
    obtain rfl | rfl | rfl := result <;> rfl
  · obtain rfl | rfl | rfl := result <;> decide
  · obtain rfl | rfl | rfl := result <;> decide

/-- Settles O47: ENUMERATION ERROR and ENUMERATION SUSPECT, NO ACCESSION in a NORMAL lane, then the three results in a DRY one. -/
theorem issuesThatCommitNothing : Obligations.IssuesThatCommitNothing := by
  refine ⟨fun s l sq o i e n r p reads body misread => ?error, fun s l sq o i x n r p reads body read far => ?suspect,
    fun s l sq o i x n r p reads body read near reaches mode within exhausted => ?noAccession,
    fun s l sq o i x n r p cls reason copy reads body read near mode outcome => ?dry⟩
  case error =>
    obtain ⟨reads, key, wf, mem, standing⟩ := reads
    refine decides_uncommitted (a := ⟨.enumerationError, .query, none, none, some r.publisher, .none⟩) (r := .enumerationError)
      reads key rfl (fun v => ?_) (fun _ => rfl) (by decide) (by decide)
    exact decideKey_of_ne (r := .enumerationError) (arrival_misread (shelves_setLane ⟨wf, mem, standing, body⟩ l v) misread _ _)
      rfl (by decide)
  case suspect =>
    obtain ⟨reads, key, wf, mem, standing⟩ := reads
    refine decides_uncommitted (a := ⟨.enumerationSuspect, .query, none, some (p.firstOrdinal x, p.firstOrdinal x + x.span.toNat - 1),
      some r.publisher, .none⟩) (r := .enumerationSuspect) reads key rfl (fun v => ?_) (fun _ => rfl) (by decide) (by decide)
    exact decideKey_of_ne (r := .enumerationSuspect) (arrival_suspect (shelves_setLane ⟨wf, mem, standing, body⟩ l v) read far _ _)
      rfl (by decide)
  case noAccession =>
    obtain ⟨reads, key, wf, mem, standing⟩ := reads
    have normal : decide ((s.lane l).mode = .normal) = true := decide_eq_true mode
    have none_left : s.offers true = false := unavailable_of_next exhausted
    refine decides_of_identify (w := s)
      (d := ⟨⟨.noAccession, .query, some (p.copyOrdinal (p.firstOrdinal x)),
        some (p.firstOrdinal x, p.firstOrdinal x + x.span.toNat - 1), some r.publisher, .none⟩, some r.key, none, none⟩)
      reads rfl (fun v hv _ => ?_) rfl rfl fun v => ?_
    · rw [identify_key key, lane_setLane_same, hv, normal]
      exact decideKey_exhaustedIssue (shelves_setLane ⟨wf, mem, standing, body⟩ l v) read rfl near reaches within none_left
    · rw [counting_of_uncounted fun _ => rfl]
      exact raiseDecision_noAccession rfl rfl sq _
  case dry =>
    obtain ⟨behind, rfl, rfl, rfl⟩ | ⟨reaches, rfl, within, rfl, ch, entry, rfl⟩ | ⟨reaches, rfl, beyond, rfl, rfl⟩ := outcome
    · exact decides_dryIssue reads body read near mode (issueAnswer_late behind r) (by decide) (.inl rfl)
    · refine decides_dryIssue reads body read near mode ?_ (cls_ne_query ch) (.inr (.inl rfl))
      rw [issueAnswer_matched reaches within, planClass_of_copy entry]
    · exact decides_dryIssue reads body read near mode (issueAnswer_surplus reaches beyond) (by decide) (.inr (.inr rfl))

end Sys2Proof.Machine
end

section
/-! What an arrival asks of the claim list (R46 to R50, R53, R54), and that it reads and changes no lane. -/

namespace Sys2Proof.Machine

/-! No lane is read or changed. -/

/-- An arrival whose part has its lane l set. -/
def ArrivalStep.setLane (a : ArrivalStep) (l : LaneId) (v : Lane) : ArrivalStep := { a with state := a.state.setLane l v }

theorem satisfy_setLane (a : ArrivalStep) (l : LaneId) (v : Lane) (k : Key) (flagged : Bool) (m : Nat) :
    (a.setLane l v).satisfy k flagged m = (a.satisfy k flagged m).setLane l v := by
  simp only [ArrivalStep.satisfy, ArrivalStep.setLane, setLane_fields, withClaims_setLane]
theorem raise_setLane (a : ArrivalStep) (l : LaneId) (v : Lane) (k : Key) (q : Nat) (cause : ClaimCause) (y : Nat × Nat) :
    (a.setLane l v).raise k q cause y = (a.raise k q cause y).setLane l v := by
  simp only [ArrivalStep.raise, ArrivalStep.setLane, setLane_fields, withClaims_setLane]
theorem mark_setLane (a : ArrivalStep) (l : LaneId) (v : Lane) (k : Key) (q x : Nat) :
    ArrivalStep.mark k q (a.setLane l v) x = (ArrivalStep.mark k q a x).setLane l v := by
  unfold ArrivalStep.mark
  dsimp only [ArrivalStep.setLane]
  split
  · exact satisfy_setLane { a with part := a.part.setCell x _ } l v k true x
  · rfl
theorem foldl_setLane {α : Type} {f : ArrivalStep → α → ArrivalStep} {l : LaneId} {v : Lane}
    (step : ∀ a x, f (a.setLane l v) x = (f a x).setLane l v) (xs : List α) (a : ArrivalStep) :
    xs.foldl f (a.setLane l v) = (xs.foldl f a).setLane l v :=
  List.foldl_hom (fun a : ArrivalStep => a.setLane l v) step
/-- R47: the runs that leave the window as it slides up to hold last. -/
def SerialPart.leaving (p : SerialPart) (q last : Nat) : List (Nat × Nat) :=
  runs ((List.range' p.w (last + 1 - Config.windowSize - p.w)).filter (p.claimable q))
theorem slide_stays {a : ArrivalStep} {last : Nat} (h : last < a.part.w + Config.windowSize) (k : Key) (q : Nat) :
    a.slide k q last = a := if_neg (Nat.not_le.2 h)
theorem slide_moves {a : ArrivalStep} {last : Nat} (h : a.part.w + Config.windowSize ≤ last) (k : Key) (q : Nat) :
    a.slide k q last =
      { (a.part.leaving q last).foldl (fun a y => a.raise k q .slidOut y) a with
        part := ((a.part.leaving q last).foldl (fun a y => a.raise k q .slidOut y) a).part.rebase (last + 1 - Config.windowSize) } :=
  if_pos h
theorem slide_setLane (a : ArrivalStep) (l : LaneId) (v : Lane) (k : Key) (q last : Nat) :
    (a.setLane l v).slide k q last = (a.slide k q last).setLane l v := by
  obtain stays | moves := Nat.lt_or_ge last (a.part.w + Config.windowSize)
  · rw [slide_stays stays, slide_stays (by exact stays)]
  · have raised := foldl_setLane (f := fun a y => a.raise k q .slidOut y) (fun b y => raise_setLane b l v k q .slidOut y)
      (a.part.leaving q last) a
    rw [slide_moves moves, slide_moves (by exact moves), show (a.setLane l v).part = a.part from rfl, raised]
    rfl
theorem closeGaps_setLane (a : ArrivalStep) (l : LaneId) (v : Lane) (k : Key) (q last : Nat) :
    (a.setLane l v).closeGaps k q last = (a.closeGaps k q last).setLane l v := by
  have raised : (a.setLane l v).raiseGaps k q last = (a.raiseGaps k q last).setLane l v :=
    foldl_setLane (fun b y => raise_setLane b l v k q .gap y) _ { a with part := a.part.received last }
  rw [ArrivalStep.closeGaps, raised]
  rfl
theorem commit_setLane (a : ArrivalStep) (l : LaneId) (v : Lane) (k : Key) (q n span : Nat) :
    (a.setLane l v).commit k q n span = (a.commit k q n span).setLane l v := by
  have part : (a.setLane l v).part = a.part := rfl
  rw [commit_eq, commit_eq, part]
  dsimp only
  rw [foldl_setLane fun b m => satisfy_setLane b l v k false m]
  split
  · rfl
  · rw [slide_setLane, foldl_setLane fun b x => mark_setLane b l v k q x, closeGaps_setLane]
theorem commitSerial_setLane (s : State) (l : LaneId) (v : Lane) (n : Nat) (r : TitleRecord) (p : SerialPart) (first span : Nat) :
    (s.setLane l v).commitSerial n r p first span =
      ((s.commitSerial n r p first span).1.setLane l v, (s.commitSerial n r p first span).2) := by
  have commit := commit_setLane ⟨s, p, .none⟩ l v r.key r.q first span
  unfold ArrivalStep.setLane at commit
  simp only [State.commitSerial, commit]
  rfl

/-! The indications. -/

/-- R54: the indications after the answer to the satisfaction of a cell flagged or not. -/
def Indications.answered (i : Indications) (flagged : Bool) : SatisfyAnswer → Indications
  | .trimmed => { i with satisfied := true }
  | .interior => { i with claimed := true }
  | .notFound => { i with claimed := i.claimed || flagged }
/-- R54: the indications after the requests of a list, in their order. -/
def ClaimList.seenAfter (c : ClaimList) (k : Key) (q day : Nat) (i : Indications) : List ClaimRequest → Indications
  | [] => i
  | .raise a b cause :: rs => ((ClaimRequest.raise a b cause).run k q day c).seenAfter k q day i rs
  | .satisfy m flagged :: rs => ((ClaimRequest.satisfy m flagged).run k q day c).seenAfter k q day (i.answered flagged (c.satisfy k m).2) rs

theorem seenAfter_append (c : ClaimList) (k : Key) (q day : Nat) (i : Indications) (xs ys : List ClaimRequest) :
    c.seenAfter k q day i (xs ++ ys) = (c.after k q day xs).seenAfter k q day (c.seenAfter k q day i xs) ys := by
  induction xs generalizing c i with
  | nil => rfl
  | cons r rs ih =>
    rw [List.cons_append, after_cons]
    cases r with
    | raise a b cause => exact ih _ _
    | satisfy m flagged => exact ih _ _
theorem satisfied_answered (i : Indications) (flagged : Bool) (a : SatisfyAnswer) :
    (i.answered flagged a).satisfied = true ↔ i.satisfied = true ∨ a = .trimmed := by
  cases a <;> simp [Indications.answered]
theorem claimed_answered (i : Indications) (flagged : Bool) (a : SatisfyAnswer) :
    (i.answered flagged a).claimed = true ↔ i.claimed = true ∨ a = .interior ∨ (flagged = true ∧ a = .notFound) := by
  cases a <;> simp [Indications.answered]
theorem satisfied_seenAfter (c : ClaimList) (k : Key) (q day : Nat) (i : Indications) (rs : List ClaimRequest) :
    (c.seenAfter k q day i rs).satisfied = true ↔ i.satisfied = true ∨ ∃ flagged, c.answers k q day rs flagged .trimmed := by
  induction rs generalizing c i with
  | nil => simp [ClaimList.seenAfter, not_answers_nil]
  | cons r rs ih =>
    cases r with
    | raise a b cause => simp [ClaimList.seenAfter, ih, answers_cons]
    | satisfy m flagged => simp [ClaimList.seenAfter, ih, answers_cons, satisfied_answered, exists_or, or_assoc]
theorem claimed_seenAfter (c : ClaimList) (k : Key) (q day : Nat) (i : Indications) (rs : List ClaimRequest) :
    (c.seenAfter k q day i rs).claimed = true ↔ i.claimed = true ∨
      (∃ flagged, c.answers k q day rs flagged .interior) ∨ c.answers k q day rs true .notFound := by
  induction rs generalizing c i with
  | nil => simp [ClaimList.seenAfter, not_answers_nil]
  | cons r rs ih =>
    cases r with
    | raise a b cause => simp [ClaimList.seenAfter, ih, answers_cons]
    | satisfy m flagged =>
      simp only [ClaimList.seenAfter, ih, answers_cons, claimed_answered, exists_or, ClaimRequest.satisfy.injEq, and_assoc,
        exists_eq_left']
      tauto
/-- R54: the indications are those the answers give. -/
theorem seenAfter_of_indicates {c : ClaimList} {k : Key} {q day : Nat} {rs : List ClaimRequest} {satisfied claimed : Bool}
    (h : c.indicates k q day rs satisfied claimed) : c.seenAfter k q day .none rs = ⟨satisfied, claimed⟩ := by
  obtain ⟨hs, hc⟩ := h
  have satisfied_eq : (c.seenAfter k q day .none rs).satisfied = satisfied :=
    Bool.eq_iff_iff.2 ((satisfied_seenAfter ..).trans (by simp [Indications.none, hs]))
  have claimed_eq : (c.seenAfter k q day .none rs).claimed = claimed :=
    Bool.eq_iff_iff.2 ((claimed_seenAfter ..).trans (by simp [Indications.none, hc]))
  rw [← satisfied_eq, ← claimed_eq]

/-! The requests of a step. -/

/-- The arrival b comes of a by the requests rs: what they make of the claim list, its edges and the indications. -/
def ArrivalStep.asks (a : ArrivalStep) (k : Key) (q : Nat) (rs : List ClaimRequest) (b : ArrivalStep) : Prop :=
  b.state = a.state.claimsAfter k q rs ∧ b.seen = a.state.claims.seenAfter k q a.state.table.today a.seen rs

theorem asks_nil (a : ArrivalStep) (k : Key) (q : Nat) (p : SerialPart) : a.asks k q [] { a with part := p } := ⟨rfl, rfl⟩
theorem asks_append {a b c : ArrivalStep} {k : Key} {q : Nat} {xs ys : List ClaimRequest} (h : a.asks k q xs b)
    (h' : b.asks k q ys c) : a.asks k q (xs ++ ys) c := by
  obtain ⟨state, seen⟩ := h
  obtain ⟨state', seen'⟩ := h'
  refine ⟨by rw [state', state, claimsAfter_append], ?_⟩
  rw [seen', seen, state, seenAfter_append]
  simp only [claimsAfter_fields]
theorem asks_of_part {a b : ArrivalStep} {k : Key} {q : Nat} {rs : List ClaimRequest} {p : SerialPart} (h : a.asks k q rs b) :
    a.asks k q rs { b with part := p } := h
theorem satisfy_asks (a : ArrivalStep) (k : Key) (q : Nat) (flagged : Bool) (m : Nat) :
    a.asks k q [.satisfy m flagged] (a.satisfy k flagged m) := by
  refine ⟨rfl, ?_⟩
  simp only [ArrivalStep.satisfy, ClaimList.seenAfter]
  cases (a.state.claims.satisfy k m).2 <;> rfl
theorem raise_asks (a : ArrivalStep) (k : Key) (q : Nat) (cause : ClaimCause) (y : Nat × Nat) :
    a.asks k q [.raise y.1 y.2 cause] (a.raise k q cause y) := ⟨rfl, rfl⟩
/-- Steps that ask one request each. -/
theorem foldl_asks {α : Type} {f : ArrivalStep → α → ArrivalStep} {g : α → ClaimRequest} {k : Key} {q : Nat}
    (step : ∀ (a : ArrivalStep) (x : α), a.asks k q [g x] (f a x)) (xs : List α) (a : ArrivalStep) : a.asks k q (xs.map g) (xs.foldl f a) := by
  induction xs generalizing a with
  | nil => exact asks_nil a k q a.part
  | cons x xs ih => exact asks_append (step a x) (ih (f a x))

end Sys2Proof.Machine
end

section
/-! Runs of consecutive ordinals, and what an arrival does to the cells of the window (R44, R47 to R50, R53). -/

namespace Sys2Proof.Machine

/-! Runs of consecutive ordinals. -/

theorem areRunsOf_congr {rs : List (Nat × Nat)} {P Q : Nat → Prop} (h : areRunsOf rs P) (same : ∀ x, P x ↔ Q x) : areRunsOf rs Q :=
  ⟨fun x => (h.1 x).trans (same x), h.2⟩
theorem areRunsOf_nil_iff (P : Nat → Prop) : areRunsOf [] P ↔ ∀ x, ¬ P x := by
  simp [areRunsOf]
/-- The lowest run ends below an ordinal left out, and the other runs are those of the ordinals above it. -/
theorem areRunsOf_cons_iff (a b : Nat) (rs : List (Nat × Nat)) (P : Nat → Prop) :
    areRunsOf ((a, b) :: rs) P ↔
      a ≤ b ∧ (∀ x, x ≤ b + 1 → (P x ↔ a ≤ x ∧ x ≤ b)) ∧ areRunsOf rs fun x => P x ∧ b + 1 < x := by
  simp only [areRunsOf, List.exists_mem_cons_iff, List.forall_mem_cons, List.pairwise_cons]
  constructor
  · rintro ⟨covers, ⟨apart, rest⟩, up, upward⟩
    have above (x : Nat) : (∃ z ∈ rs, z.1 ≤ x ∧ x ≤ z.2) → b + 1 < x := by
      rintro ⟨z, hz, low, -⟩
      have := apart z hz
      omega
    refine ⟨up, fun x hx => ?_, fun x => ?_, rest, upward⟩
    · rw [← covers]
      exact or_iff_left fun outside => Nat.not_le.2 (above x outside) hx
    · rw [← covers]
      exact ⟨fun outside => ⟨.inr outside, above x outside⟩, fun ⟨inside, far⟩ => inside.resolve_left (by omega)⟩
  · rintro ⟨up, low, covers, rest, upward⟩
    refine ⟨fun x => ?_, ⟨fun z hz => ((covers z.1).1 ⟨z, hz, Nat.le_refl _, upward z hz⟩).2, rest⟩, up, upward⟩
    rw [covers]
    obtain near | far := Nat.lt_or_ge (b + 1) x
    · exact ⟨fun h => (h.resolve_left (by omega)).1, fun h => .inr ⟨h, near⟩⟩
    · rw [low x far]
      exact or_iff_left fun h => Nat.not_le.2 h.2 far
/-- An ordinal below a run that does not adjoin it is a run of its own. -/
theorem runs_cons_alone {x : Nat} {t : List Nat} (h : ∀ y ∈ runs t, y.1 ≠ x + 1) : runs (x :: t) = (x, x) :: runs t := by
  rw [runs]
  split
  · next none => rw [none]
  · next a b r first =>
    have apart := h (a, b) (by rw [first]; exact List.mem_cons_self)
    rw [first]
    exact if_neg apart
/-- An ordinal just below the lowest run joins it. -/
theorem runs_cons_joined {x b : Nat} {t : List Nat} {rs : List (Nat × Nat)} (h : runs t = (x + 1, b) :: rs) :
    runs (x :: t) = (x, b) :: rs := by
  rw [runs, h]
  exact if_pos rfl
/-- The least of rising ordinals starts the lowest run. -/
theorem first_of_areRunsOf {x a b : Nat} {t : List Nat} {rs : List (Nat × Nat)} (least : ∀ z ∈ t, x < z)
    (h : areRunsOf ((a, b) :: rs) (· ∈ x :: t)) : a = x := by
  obtain ⟨up, low, -⟩ := (areRunsOf_cons_iff ..).1 h
  have mem : a ∈ x :: t := (low a (by omega)).2 ⟨Nat.le_refl a, up⟩
  obtain same | later := List.mem_cons.1 mem
  · exact same
  · have after := least a later
    have at_x := (low x (by omega)).1 List.mem_cons_self
    omega
/-- R47, R50: the maximal runs of rising ordinals are what gathering them gives. -/
theorem runs_eq {xs : List Nat} (rising : xs.Pairwise (· < ·)) {rs : List (Nat × Nat)} (h : areRunsOf rs (· ∈ xs)) :
    runs xs = rs := by
  induction xs generalizing rs with
  | nil =>
    obtain - | ⟨⟨a, b⟩, rs⟩ := rs
    · rfl
    · obtain ⟨up, low, -⟩ := (areRunsOf_cons_iff ..).1 h
      exact absurd ((low a (by omega)).2 ⟨Nat.le_refl a, up⟩) List.not_mem_nil
  | cons x t ih =>
    obtain ⟨least, rising_t⟩ := List.pairwise_cons.1 rising
    obtain - | ⟨⟨a, b⟩, rs⟩ := rs
    · exact absurd List.mem_cons_self ((areRunsOf_nil_iff _).1 h x)
    · obtain rfl := first_of_areRunsOf least h
      obtain ⟨up, low, rest⟩ := (areRunsOf_cons_iff ..).1 h
      have tail (z : Nat) : z ∈ t ↔ z ∈ a :: t ∧ a < z := by
        rw [List.mem_cons, or_and_right]
        exact ⟨fun later => .inr ⟨later, least z later⟩, fun both => both.elim (fun same => by omega) And.left⟩
      obtain rfl | longer := Nat.eq_or_lt_of_le up
      · have gathered : runs t = rs := ih rising_t (areRunsOf_congr rest fun z => by
          rw [tail, and_congr_right_iff]
          intro mem
          have near_is_first := fun near => (low z near).1 mem
          omega)
        rw [runs_cons_alone, gathered]
        rw [gathered]
        intro y hy adjoins
        have covered := (rest.1 y.1).1 ⟨y, hy, Nat.le_refl _, rest.2.2 y hy⟩
        omega
      · have others (z : Nat) : (z ∈ a :: t ∧ b + 1 < z) ↔ z ∈ t ∧ b + 1 < z := by
          rw [tail, and_assoc, and_congr_right_iff]
          intro _
          omega
        refine runs_cons_joined (ih rising_t ((areRunsOf_cons_iff ..).2 ⟨longer, fun z near => ?_, areRunsOf_congr rest others⟩))
        rw [tail, low z near]
        omega

/-! The cells changed one after another. -/

/-- The cells of the ordinals xs changed by f. -/
def SerialPart.changeCells (p : SerialPart) (f : Cell → Cell) (xs : List Nat) : SerialPart :=
  xs.foldl (fun p x => p.setCell x (f (p.cell x))) p
/-- R48: a copy counted in a cell. -/
def Cell.counted (c : Cell) : Cell := { c with count := min (c.count + 1) Config.cellMax }
/-- R44: a cell flagged. -/
def Cell.flagged (c : Cell) : Cell := { c with claimed := true }

theorem changeCells_fields (p : SerialPart) (f : Cell → Cell) (xs : List Nat) :
    (p.changeCells f xs).w = p.w ∧ (p.changeCells f xs).h = p.h ∧ (p.changeCells f xs).cells.length = p.cells.length ∧
    p.moved (p.changeCells f xs) := by
  refine foldl_keeps (P := fun p' : SerialPart => p'.w = p.w ∧ p'.h = p.h ∧ p'.cells.length = p.cells.length ∧ p.moved p') ?_ xs p
    ⟨rfl, rfl, rfl, moved_refl p⟩
  rintro p' x ⟨w, h, len, moves⟩
  simp only [setCell_fields]
  exact ⟨w, h, len, moved_trans moves (moved_setCell _ _ _)⟩
/-- Ordinals of the window, each named once, have their cells changed once. -/
theorem cell_changeCells (p : SerialPart) (f : Cell → Cell) {xs : List Nat} (once : xs.Nodup) (y : Nat) :
    (p.changeCells f xs).cell y = if y ∈ xs ∧ p.w ≤ y ∧ y < p.w + p.cells.length then f (p.cell y) else p.cell y := by
  induction xs generalizing p with
  | nil => simp [SerialPart.changeCells]
  | cons x t ih =>
    obtain ⟨fresh, once_t⟩ := List.nodup_cons.1 once
    have step : p.changeCells f (x :: t) = (p.setCell x (f (p.cell x))).changeCells f t := rfl
    rw [step, ih _ once_t, cell_setCell]
    simp only [setCell_fields, List.mem_cons]
    by_cases same : y = x
    · subst same
      simp only [fresh, false_and, if_false, true_and, true_or]
    · simp only [same, false_and, if_false, false_or]
theorem flagRange_eq (p : SerialPart) (first last : Nat) :
    p.flagRange first last = p.changeCells Cell.flagged (List.range' first (last + 1 - first)) := rfl
/-- R44: the flags of a range of the window. -/
theorem cell_flagRange (p : SerialPart) (first last y : Nat) : (p.flagRange first last).cell y =
    if (first ≤ y ∧ y ≤ last) ∧ p.w ≤ y ∧ y < p.w + p.cells.length then (p.cell y).flagged else p.cell y := by
  rw [flagRange_eq, cell_changeCells _ _ List.nodup_range']
  refine if_congr (and_congr_left fun _ => ?_) rfl rfl
  rw [List.mem_range'_1]
  omega

/-- R53: the cells of the ranges ys flagged. -/
def SerialPart.flagRanges (p : SerialPart) (ys : List (Nat × Nat)) : SerialPart := ys.foldl (fun p y => p.flagRange y.1 y.2) p
theorem flagRanges_fields (p : SerialPart) (ys : List (Nat × Nat)) :
    (p.flagRanges ys).w = p.w ∧ (p.flagRanges ys).cells.length = p.cells.length := by
  refine foldl_keeps (P := fun p' : SerialPart => p'.w = p.w ∧ p'.cells.length = p.cells.length) (fun p' y kept => ?_) ys p ⟨rfl, rfl⟩
  obtain ⟨w, -, len, -⟩ := changeCells_fields p' Cell.flagged (List.range' y.1 (y.2 + 1 - y.1))
  exact ⟨w.trans kept.1, len.trans kept.2⟩
/-- R53: flagging leaves the counts, and flags the ordinals of the ranges that are in the window. -/
theorem cell_flagRanges (p : SerialPart) (ys : List (Nat × Nat)) (x : Nat) :
    ((p.flagRanges ys).cell x).count = (p.cell x).count ∧
    (((p.flagRanges ys).cell x).claimed = true ↔
      (p.cell x).claimed = true ∨ (∃ y ∈ ys, y.1 ≤ x ∧ x ≤ y.2) ∧ p.w ≤ x ∧ x < p.w + p.cells.length) := by
  induction ys generalizing p with
  | nil => simp [SerialPart.flagRanges]
  | cons y ys ih =>
    obtain ⟨w, -, len, -⟩ := changeCells_fields p Cell.flagged (List.range' y.1 (y.2 + 1 - y.1))
    rw [← flagRange_eq] at w len
    have step : p.flagRanges (y :: ys) = (p.flagRange y.1 y.2).flagRanges ys := rfl
    obtain ⟨count, claimed⟩ := ih (p.flagRange y.1 y.2)
    rw [step, count, claimed, w, len, cell_flagRange]
    simp only [List.exists_mem_cons_iff, or_and_right]
    split
    · next inside => exact ⟨rfl, by simp [Cell.flagged, inside]⟩
    · next outside => exact ⟨rfl, by simp only [outside, false_or]⟩

/-! What the steps leave in the window, and what they ask. -/

/-- R47: a SLID OUT raise leaves the serial part alone. -/
theorem slideRaises_part (a : ArrivalStep) (k : Key) (q : Nat) (ys : List (Nat × Nat)) :
    (ys.foldl (fun a y => a.raise k q .slidOut y) a).part = a.part :=
  foldl_same ArrivalStep.part (fun a y => by simp [ArrivalStep.raise]) ys a
/-- R53: the GAP runs that are entered are flagged. -/
theorem gapRaises_part (a : ArrivalStep) (k : Key) (q : Nat) (ys : List (Nat × Nat)) :
    (ys.foldl (fun a y => a.raise k q .gap y) a).part =
      a.part.flagRanges (a.state.claims.entered k q a.state.table.today .gap ys) := by
  induction ys generalizing a with
  | nil => rfl
  | cons y ys ih =>
    rw [List.foldl_cons, ih]
    simp only [ArrivalStep.raise, withClaims_fields, ClaimList.entered]
    cases (a.state.claims.raiseIssues k y.1 y.2 q .gap a.state.table.today).2 <;> rfl
/-- The runs entered are among those raised. -/
theorem mem_of_mem_entered {c : ClaimList} {k : Key} {q day : Nat} {cause : ClaimCause} {ys : List (Nat × Nat)} {y : Nat × Nat}
    (h : y ∈ c.entered k q day cause ys) : y ∈ ys := by
  induction ys generalizing c with
  | nil => exact h
  | cons z ys ih =>
    simp only [ClaimList.entered] at h
    split at h
    · obtain rfl | later := List.mem_cons.1 h
      · exact List.mem_cons_self
      · exact List.mem_cons_of_mem _ (ih later)
    · exact List.mem_cons_of_mem _ (ih h)

/-- R48: an ordinal whose marking asks for a satisfaction. -/
def SerialPart.completes (p : SerialPart) (q x : Nat) : Bool := (p.cell x).claimed && (p.cell x).count + 1 == q
theorem mark_part (a : ArrivalStep) (k : Key) (q x : Nat) :
    (ArrivalStep.mark k q a x).part = a.part.setCell x (a.part.cell x).counted := by
  unfold ArrivalStep.mark
  dsimp only
  split <;> rfl
theorem mark_asks (a : ArrivalStep) (k : Key) (q x : Nat) :
    a.asks k q (([x].filter (a.part.completes q)).map fun x => .satisfy x true) (ArrivalStep.mark k q a x) := by
  unfold ArrivalStep.mark
  dsimp only
  split
  · next asked =>
    rw [List.filter_cons_of_pos (by exact asked)]
    exact satisfy_asks { a with part := _ } k q true x
  · next unasked =>
    rw [List.filter_cons_of_neg (by exact unasked)]
    exact asks_nil a k q _
theorem marks_part (a : ArrivalStep) (k : Key) (q : Nat) (xs : List Nat) :
    (xs.foldl (ArrivalStep.mark k q) a).part = a.part.changeCells Cell.counted xs :=
  (List.foldl_hom ArrivalStep.part fun a x => (mark_part a k q x).symm).symm
/-- R48: ordinals marked once each ask as the cells they found say. -/
theorem marks_asks (a : ArrivalStep) (k : Key) (q : Nat) {xs : List Nat} (once : xs.Nodup) :
    a.asks k q ((xs.filter (a.part.completes q)).map fun x => .satisfy x true) (xs.foldl (ArrivalStep.mark k q) a) := by
  induction xs generalizing a with
  | nil => exact asks_nil a k q a.part
  | cons x t ih =>
    obtain ⟨fresh, once_t⟩ := List.nodup_cons.1 once
    have same : t.filter ((ArrivalStep.mark k q a x).part.completes q) = t.filter (a.part.completes q) :=
      List.filter_congr fun y hy => by
        have other : y ≠ x := fun e => fresh (e ▸ hy)
        simp only [SerialPart.completes, mark_part, cell_setCell, other, false_and, if_false]
    have tail := ih (ArrivalStep.mark k q a x) once_t
    rw [same] at tail
    rw [← List.singleton_append, List.filter_append, List.map_append]
    exact asks_append (mark_asks a k q x) tail

end Sys2Proof.Machine
end

section
/-! A committed arrival of a SERIAL (R45 to R54): its requests in their order, and the window it leaves. -/

namespace Sys2Proof.Machine

/-! The window through the steps. -/

/-- R42: the window stands at w with 64 cells, of the counts and flags given from w up. -/
def SerialPart.shows (p : SerialPart) (w : Nat) (count : Nat → Nat) (claimed : Nat → Prop) : Prop :=
  p.w = w ∧ p.cells.length = Config.windowSize ∧ ∀ x, w ≤ x → (p.cell x).count = count x ∧ ((p.cell x).claimed = true ↔ claimed x)
/-- R47: the base of the window that has slid up to hold last. -/
def SerialPart.slidTo (p : SerialPart) (last : Nat) : Nat := max p.w (last + 1 - Config.windowSize)

theorem claimable_iff (p : SerialPart) (q x : Nat) : p.claimable q x = true ↔ (p.cell x).count < q ∧ (p.cell x).claimed = false := by
  simp [SerialPart.claimable, Cell.complete]
theorem rising_filter (f : Nat → Bool) (n len : Nat) : ((List.range' n len).filter f).Pairwise (· < ·) :=
  (List.pairwise_lt_range').filter f

/-- R47: the runs that slide out, as the record found names them. -/
theorem leaving_eq {p : SerialPart} {q last : Nat} {slid : List (Nat × Nat)} (h : areRunsOf slid (p.slidesOut q last)) :
    p.leaving q last = slid := by
  refine runs_eq (rising_filter _ _ _) (areRunsOf_congr h fun x => ?_)
  have place : p.w ≤ x ∧ x < p.w + (last + 1 - Config.windowSize - p.w) ↔ p.w ≤ x ∧ x + 63 < last := by
    unfold Config.windowSize
    omega
  rw [List.mem_filter, List.mem_range'_1, claimable_iff, place, and_assoc]
  rfl
theorem slide_asks (a : ArrivalStep) (k : Key) (q last : Nat) :
    a.asks k q ((a.part.leaving q last).map fun y => .raise y.1 y.2 .slidOut) (a.slide k q last) := by
  obtain stays | moves := Nat.lt_or_ge last (a.part.w + Config.windowSize)
  · have none : a.part.leaving q last = [] := by
      rw [SerialPart.leaving, show last + 1 - Config.windowSize - a.part.w = 0 by omega]
      rfl
    rw [slide_stays stays, none]
    exact asks_nil a k q a.part
  · rw [slide_moves moves]
    exact asks_of_part (foldl_asks (fun a y => raise_asks a k q .slidOut y) _ a)
/-- R42, R47: the cells that stay as the window slides. -/
theorem slide_shows {a : ArrivalStep} (len : a.part.cells.length = Config.windowSize) (k : Key) (q last : Nat) :
    (a.slide k q last).part.shows (a.part.slidTo last) (fun x => (a.part.cell x).count) fun x => (a.part.cell x).claimed = true := by
  unfold SerialPart.slidTo
  obtain stays | moves := Nat.lt_or_ge last (a.part.w + Config.windowSize)
  · rw [slide_stays stays, Nat.max_eq_left (by omega)]
    exact ⟨rfl, len, fun x _ => ⟨rfl, Iff.rfl⟩⟩
  · rw [slide_moves moves, slideRaises_part, Nat.max_eq_right (by omega)]
    refine ⟨rfl, by simp [SerialPart.rebase], fun x hx => ?_⟩
    rw [cell_rebase_of_le len (by omega) hx]
    exact ⟨rfl, Iff.rfl⟩
/-- R48: the counts once the ordinals of the arrival are marked. -/
theorem marks_shows {p c : SerialPart} {n last : Nat} {xs : List Nat} (once : xs.Nodup) (mem : ∀ x, x ∈ xs ↔ (n ≤ x ∧ x ≤ last) ∧ p.w ≤ x)
    (shows : c.shows (p.slidTo last) (fun x => (p.cell x).count) fun x => (p.cell x).claimed = true) :
    (c.changeCells Cell.counted xs).shows (p.slidTo last) (p.marked n last) fun x => (p.cell x).claimed = true := by
  obtain ⟨w, len, cells⟩ := shows
  beta_reduce at cells
  obtain ⟨w', -, len', -⟩ := changeCells_fields c Cell.counted xs
  refine ⟨w'.trans w, len'.trans len, fun x hx => ?_⟩
  obtain ⟨count, claimed⟩ := cells x hx
  have covered : (x ∈ xs ∧ c.w ≤ x ∧ x < c.w + c.cells.length) ↔ n ≤ x ∧ x ≤ last := by
    rw [mem, w, len]
    unfold SerialPart.slidTo Config.windowSize at *
    omega
  rw [cell_changeCells c _ once, if_congr covered rfl rfl, SerialPart.marked, ← count]
  split
  · exact ⟨rfl, claimed⟩
  · exact ⟨rfl, claimed⟩
theorem leavesGap_iff (p : SerialPart) (q n last x : Nat) : p.leavesGap q n last x ↔
    p.slidTo last ≤ x ∧ x + p.gapLag < p.reached last ∧ p.marked n last x < q ∧ (p.cell x).claimed = false := by
  have base : p.slidTo last ≤ x ↔ p.w ≤ x ∧ last ≤ x + 63 := by
    unfold SerialPart.slidTo Config.windowSize
    omega
  rw [base, and_assoc]
  rfl
/-- R50: the runs of gaps, as the record found names them. -/
theorem gaps_eq {p c : SerialPart} {q n last : Nat} {gaps : List (Nat × Nat)} (moves : p.moved c) (high : c.h = p.h)
    (shows : c.shows (p.slidTo last) (p.marked n last) fun x => (p.cell x).claimed = true)
    (h : areRunsOf gaps (p.leavesGap q n last)) : (c.received last).gaps q = gaps := by
  obtain ⟨w, -, cells⟩ := shows
  beta_reduce at cells
  have lag : (c.received last).gapLag = p.gapLag := by
    rw [moves]
    rfl
  have base : (c.received last).w = p.slidTo last := w
  have reached : c.reached last = p.reached last := by
    rw [SerialPart.reached, high]
    rfl
  have claimable (x : Nat) (inside : p.slidTo last ≤ x) :
      (c.received last).claimable q x = true ↔ p.marked n last x < q ∧ (p.cell x).claimed = false := by
    obtain ⟨count, claimed⟩ := cells x inside
    rw [← count, ← Bool.not_eq_true, ← claimed, Bool.not_eq_true]
    exact claimable_iff c q x
  simp only [SerialPart.gaps, received_h, reached, base, lag]
  refine runs_eq (rising_filter _ _ _) (areRunsOf_congr h fun x => ?_)
  rw [leavesGap_iff, List.mem_filter, List.mem_range'_1, Bool.and_eq_true, decide_eq_true_eq]
  constructor
  · rintro ⟨inside, lags, missing⟩
    exact ⟨⟨inside, by omega⟩, (claimable x inside).2 missing, lags⟩
  · rintro ⟨⟨inside, -⟩, missing, lags⟩
    exact ⟨inside, lags, (claimable x inside).1 missing⟩
/-- R50, R53: the flags once the runs of gaps that were entered are flagged. -/
theorem flagged_shows {p c : SerialPart} {q n last : Nat} {gaps flagged : List (Nat × Nat)} (wf : p.wf)
    (shows : c.shows (p.slidTo last) (p.marked n last) fun x => (p.cell x).claimed = true)
    (h : areRunsOf gaps (p.leavesGap q n last)) (sub : ∀ y ∈ flagged, y ∈ gaps) :
    (c.flagRanges flagged).shows (p.slidTo last) (p.marked n last) fun x =>
      (p.cell x).claimed = true ∨ ∃ y ∈ flagged, y.1 ≤ x ∧ x ≤ y.2 := by
  obtain ⟨w, len, cells⟩ := shows
  obtain ⟨w', len'⟩ := flagRanges_fields c flagged
  have within := reached_within last wf (w := p.slidTo last) rfl
  refine ⟨w'.trans w, len'.trans len, fun x hx => ?_⟩
  obtain ⟨count, claimed⟩ := cells x hx
  obtain ⟨count', claimed'⟩ := cell_flagRanges c flagged x
  refine ⟨count'.trans count, claimed'.trans (or_congr claimed (and_iff_left_of_imp ?_))⟩
  rintro ⟨y, hy, inside⟩
  obtain ⟨-, -, below, -⟩ := (h.1 x).1 ⟨y, sub y hy, inside⟩
  rw [w, len]
  exact ⟨hx, by omega⟩
/-- R51: the window once its base has advanced over complete cells. -/
theorem advance_arrivedAs {p c : SerialPart} {q n last : Nat} {flagged : List (Nat × Nat)} (hq : 1 ≤ q) (moves : p.moved c)
    (high : c.h = some (p.reached last))
    (shows : c.shows (p.slidTo last) (p.marked n last) fun x => (p.cell x).claimed = true ∨ ∃ y ∈ flagged, y.1 ≤ x ∧ x ≤ y.2) :
    p.arrivedAs (c.advance q) q n last flagged := by
  obtain ⟨w, len, cells⟩ := shows
  have up := advance_w c q
  have kept (x : Nat) (hx : (c.advance q).w ≤ x) : (c.advance q).cell x = c.cell x := by
    rw [advance_eq] at hx ⊢
    exact cell_rebase_of_le len (Nat.le_add_right _ _) hx
  refine ⟨?_, by simp [advance_eq, SerialPart.rebase, Config.windowSize], ?_, fun x low below => ?_, ?_, fun x hx => ?_⟩
  · have shape := moved_trans moves (moved_advance c q)
    unfold SerialPart.moved at shape
    rw [show (c.advance q).h = some (p.reached last) from high] at shape
    exact shape
  · rw [up, w]
    exact Nat.le_add_right _ _
  · rw [← (cells x low).1]
    exact complete_of_lt_advance (w.trans_le low) below
  · rw [kept _ (Nat.le_refl _)]
    exact incomplete_at_advance c hq
  · rw [kept x hx]
    exact cells x (by rw [← w]; omega)

/-! The steps together. -/

/-- R46: the ordinals behind satisfied. -/
def ArrivalStep.satisfyBehind (a : ArrivalStep) (k : Key) (n span : Nat) : ArrivalStep :=
  ((coveredBy n span).filter fun x => decide (x < a.part.w)).foldl (fun a m => a.satisfy k false m) a
/-- R48: the covered ordinals that are not behind. -/
def SerialPart.live (p : SerialPart) (n span : Nat) : List Nat := (coveredBy n span).filter fun x => decide (p.w ≤ x)

theorem mem_live {p : SerialPart} {n span : Nat} (covers : 1 ≤ span) (x : Nat) :
    x ∈ p.live n span ↔ (n ≤ x ∧ x ≤ n + span - 1) ∧ p.w ≤ x := by
  simp only [SerialPart.live, coveredBy, List.mem_filter, List.mem_range'_1, decide_eq_true_eq]
  omega
theorem live_nodup (p : SerialPart) (n span : Nat) : (p.live n span).Nodup := (List.nodup_range').filter _
/-- R52: a late arrival satisfies its ordinals and leaves the window. -/
theorem commit_late {a : ArrivalStep} {n span : Nat} (behind : n + span - 1 < a.part.w) (covers : 1 ≤ span) (k : Key) (q : Nat) :
    a.commit k q n span = a.satisfyBehind k n span := by
  have none : a.part.live n span = [] := by
    rw [List.eq_nil_iff_forall_not_mem]
    intro x hx
    have := (mem_live covers x).1 hx
    omega
  exact if_pos (List.isEmpty_iff.2 none)
/-- R46 to R48: an arrival once its ordinals are marked. -/
def ArrivalStep.marked (a : ArrivalStep) (k : Key) (q n span : Nat) : ArrivalStep :=
  (a.part.live n span).foldl (ArrivalStep.mark k q) ((a.satisfyBehind k n span).slide k q (n + span - 1))
theorem commit_live {a : ArrivalStep} {n span : Nat} (reaches : a.part.w ≤ n + span - 1) (covers : 1 ≤ span) (k : Key) (q : Nat) :
    a.commit k q n span = (a.marked k q n span).closeGaps k q (n + span - 1) := by
  have nonempty : a.part.live n span ≠ [] := List.ne_nil_of_mem ((mem_live covers (n + span - 1)).2 ⟨by omega, reaches⟩)
  exact if_neg fun empty => nonempty (List.isEmpty_iff.1 empty)

theorem satisfyBehind_part (a : ArrivalStep) (k : Key) (n span : Nat) : (a.satisfyBehind k n span).part = a.part :=
  foldl_same (f := fun a m => ArrivalStep.satisfy a k false m) ArrivalStep.part (fun _ _ => rfl) _ a
theorem satisfyBehind_asks (a : ArrivalStep) (k : Key) (q n : Nat) {span : Nat} (covers : 1 ≤ span) :
    a.asks k q (a.part.behindRequests n (n + span - 1)) (a.satisfyBehind k n span) := by
  rw [SerialPart.behindRequests, show n + span - 1 + 1 - n = span by omega]
  exact foldl_asks (fun a m => satisfy_asks a k q false m) _ a
/-- R48: the cells that the marking completes, as the record found names them. -/
theorem markRequests_eq {p c : SerialPart} {q n span : Nat} (covers : 1 ≤ span) (few : span ≤ Config.windowSize)
    (shows : c.shows (p.slidTo (n + span - 1)) (fun x => (p.cell x).count) fun x => (p.cell x).claimed = true) :
    p.markRequests q n (n + span - 1) = ((p.live n span).filter (c.completes q)).map fun x => .satisfy x true := by
  obtain ⟨-, -, cells⟩ := shows
  have same (x : Nat) (hx : x ∈ p.live n span) : c.completes q x = p.completes q x := by
    have inside : p.slidTo (n + span - 1) ≤ x := by
      have := (mem_live covers x).1 hx
      unfold SerialPart.slidTo
      omega
    obtain ⟨count, claimed⟩ := cells x inside
    simp only [SerialPart.completes, count, Bool.eq_iff_iff.2 claimed]
  rw [List.filter_congr same, SerialPart.live, List.filter_filter, SerialPart.markRequests, show n + span - 1 + 1 - n = span by omega]
  refine congrArg (List.map _) (List.filter_congr fun x _ => ?_)
  rw [Bool.eq_iff_iff]
  simp only [SerialPart.completes, decide_eq_true_eq, Bool.and_eq_true, beq_iff_eq]
  exact and_comm

/-- R47: the slide behind the satisfactions, and the window it leaves. -/
theorem slide_behind {a : ArrivalStep} (len : a.part.cells.length = Config.windowSize) (k : Key) (q n span last : Nat) :
    (a.satisfyBehind k n span).asks k q ((a.part.leaving q last).map fun y => .raise y.1 y.2 .slidOut)
      ((a.satisfyBehind k n span).slide k q last) ∧
    a.part.moved ((a.satisfyBehind k n span).slide k q last).part ∧ ((a.satisfyBehind k n span).slide k q last).part.h = a.part.h ∧
    ((a.satisfyBehind k n span).slide k q last).part.shows (a.part.slidTo last) (fun x => (a.part.cell x).count)
      fun x => (a.part.cell x).claimed = true := by
  have part := satisfyBehind_part a k n span
  have asks := slide_asks (a.satisfyBehind k n span) k q last
  have shows := slide_shows (a := a.satisfyBehind k n span) (part ▸ len) k q last
  obtain ⟨-, moves, -, high, -⟩ := slide_part (a.satisfyBehind k n span) k q last none
  rw [part] at asks moves high shows
  exact ⟨asks, moves, high, shows⟩
/-- R46 to R48: what an arrival has asked once its ordinals are marked. -/
theorem marked_asks {a : ArrivalStep} {q n span : Nat} {slid : List (Nat × Nat)} (len : a.part.cells.length = Config.windowSize)
    (covers : 1 ≤ span) (few : span ≤ Config.windowSize) (slides : areRunsOf slid (a.part.slidesOut q (n + span - 1))) (k : Key) :
    a.asks k q (a.part.requests q n (n + span - 1) slid []) (a.marked k q n span) := by
  obtain ⟨slid_asks, -, -, shows⟩ := slide_behind len k q n span (n + span - 1)
  rw [leaving_eq slides] at slid_asks
  have marks := marks_asks ((a.satisfyBehind k n span).slide k q (n + span - 1)) k q (live_nodup a.part n span)
  rw [← markRequests_eq covers few shows] at marks
  rw [SerialPart.requests, List.map_nil, List.append_nil]
  exact asks_append (asks_append (satisfyBehind_asks a k q n covers) slid_asks) marks
/-- R48: the window once the ordinals of the arrival are marked. -/
theorem marked_part {a : ArrivalStep} {span : Nat} (len : a.part.cells.length = Config.windowSize) (covers : 1 ≤ span) (k : Key)
    (q n : Nat) :
    a.part.moved (a.marked k q n span).part ∧ (a.marked k q n span).part.h = a.part.h ∧
    (a.marked k q n span).part.shows (a.part.slidTo (n + span - 1)) (a.part.marked n (n + span - 1))
      fun x => (a.part.cell x).claimed = true := by
  obtain ⟨-, moves, high, shows⟩ := slide_behind len k q n span (n + span - 1)
  rw [ArrivalStep.marked, marks_part]
  obtain ⟨-, high', -, moves'⟩ :=
    changeCells_fields ((a.satisfyBehind k n span).slide k q (n + span - 1)).part Cell.counted (a.part.live n span)
  exact ⟨moved_trans moves moves', high'.trans high, marks_shows (live_nodup a.part n span) (mem_live covers) shows⟩
/-- R49 to R51, R53: what an arrival asks once its ordinals are marked, and the window it leaves. -/
theorem closeGaps_arrives {a : ArrivalStep} {p : SerialPart} {q n last : Nat} {gaps : List (Nat × Nat)} (wf : p.wf) (hq : 1 ≤ q)
    (moves : p.moved a.part) (high : a.part.h = p.h)
    (shows : a.part.shows (p.slidTo last) (p.marked n last) fun x => (p.cell x).claimed = true)
    (leaves : areRunsOf gaps (p.leavesGap q n last)) (k : Key) :
    a.asks k q (gaps.map fun y => .raise y.1 y.2 .gap) (a.closeGaps k q last) ∧
    p.arrivedAs (a.closeGaps k q last).part q n last (a.state.claims.entered k q a.state.table.today .gap gaps) := by
  have raised : a.raiseGaps k q last = gaps.foldl (fun a y => a.raise k q .gap y) { a with part := a.part.received last } := by
    rw [ArrivalStep.raiseGaps, gaps_eq moves high shows leaves]
  have part := gapRaises_part { a with part := a.part.received last } k q gaps
  obtain ⟨-, moves', -, high', -⟩ := raiseGaps_part a k q last none
  have reached : a.part.reached last = p.reached last := by
    rw [SerialPart.reached, high]
    rfl
  rw [raised] at moves' high'
  rw [ArrivalStep.closeGaps, raised]
  refine ⟨asks_of_part (foldl_asks (fun a y => raise_asks a k q .gap y) gaps { a with part := a.part.received last }), ?_⟩
  refine advance_arrivedAs hq (moved_trans moves moves') (high'.trans (congrArg some reached)) ?_
  rw [part]
  exact flagged_shows wf shows leaves fun y hy => mem_of_mem_entered hy

/-- R45 to R54: a committed arrival that is not wholly behind: what it asks, and the window it leaves. -/
theorem commit_arrives {a : ArrivalStep} {q n span last : Nat} {slid gaps : List (Nat × Nat)} (wf : a.part.wf) (hq : 1 ≤ q)
    (covers : 1 ≤ span) (few : span ≤ Config.windowSize) (last_eq : last = n + span - 1) (reaches : a.part.w ≤ last)
    (slides : areRunsOf slid (a.part.slidesOut q last)) (leaves : areRunsOf gaps (a.part.leavesGap q n last)) (k : Key) :
    a.asks k q (a.part.requests q n last slid gaps) (a.commit k q n span) ∧
    a.part.arrivedAs (a.commit k q n span).part q n last
      ((a.state.claims.after k q a.state.table.today (a.part.requests q n last slid [])).entered k q a.state.table.today .gap gaps) := by
  subst last_eq
  have before := marked_asks wf.1 covers few slides k
  obtain ⟨moves, high, shows⟩ := marked_part (a := a) wf.1 covers k q n
  obtain ⟨asks, arrives⟩ := closeGaps_arrives wf hq moves high shows leaves k
  rw [commit_live reaches covers]
  have all := asks_append before asks
  rw [SerialPart.requests, List.map_nil, List.append_nil] at all
  refine ⟨all, ?_⟩
  rw [before.1] at arrives
  simpa only [claimsAfter_fields] using arrives

end Sys2Proof.Machine
end

section
/-! Issues of a SERIAL committed in a NORMAL lane (R45 to R54, R115 to R117). -/

namespace Sys2Proof.Machine

/-! What is committed. -/

/-- R45: the part once an issue of the record r asked rs of the claim list and left the record r' in slot n. -/
def State.issueCommitted (s : State) (n : Nat) (r r' : TitleRecord) (rs : List ClaimRequest) : State :=
  { s.claimsAfter r.key r.q rs with table := s.table.place n r' }
theorem issueCommitted_fields (s : State) (n : Nat) (r r' : TitleRecord) (rs : List ClaimRequest) :
    (s.issueCommitted n r r' rs).consign = s.consign ∧ (s.issueCommitted n r r' rs).decision = s.decision := by
  simp [State.issueCommitted]
/-- R45, R54: the commit of an issue: what its requests make of the claim list, its record in its slot, and the two indications. -/
theorem commitSerial_eq {s : State} {r : TitleRecord} {p : SerialPart} {first span : Nat} {rs : List ClaimRequest}
    {satisfied claimed : Bool} (asks : (⟨s, p, .none⟩ : ArrivalStep).asks r.key r.q rs (ArrivalStep.commit ⟨s, p, .none⟩ r.key r.q first span))
    (indicates : s.claims.indicates r.key r.q s.table.today rs satisfied claimed) (n : Nat) :
    s.commitSerial n r p first span =
      (s.issueCommitted n r { r with
          lastArrival := some s.table.today, body := .serial (ArrivalStep.commit ⟨s, p, .none⟩ r.key r.q first span).part } rs,
        ⟨satisfied, claimed⟩) := by
  obtain ⟨state, seen⟩ := asks
  simp only [State.commitSerial, State.issueCommitted, State.putRecord, state, seen, claimsAfter_fields, seenAfter_of_indicates indicates]
/-- R52: the commit of a LATE ISSUE. -/
theorem commitSerial_late {s : State} {r : TitleRecord} {p : SerialPart} {first span last : Nat} {satisfied claimed : Bool}
    (body : r.body = .serial p) (covers : 1 ≤ span) (last_eq : last = first + span - 1) (behind : last < p.w)
    (indicates : s.claims.indicates r.key r.q s.table.today (p.behindRequests first last) satisfied claimed) (n : Nat) :
    s.commitSerial n r p first span =
      (s.issueCommitted n r { r with lastArrival := some s.table.today } (p.behindRequests first last), ⟨satisfied, claimed⟩) := by
  subst last_eq
  have asks := satisfyBehind_asks ⟨s, p, .none⟩ r.key r.q first covers
  have part := satisfyBehind_part ⟨s, p, .none⟩ r.key first span
  rw [← commit_late behind covers r.key r.q] at asks part
  rw [commitSerial_eq asks indicates, part, ← body]

/-! What is decided. -/

/-- R32, R45: the request of a NORMAL lane for an issue that commits. -/
theorem arrival_committedIssue {s : State} {n first last : Nat} {r : TitleRecord} {p : SerialPart} {x : Enumeration} {u : State}
    {seen : Indications} {a : Answer} (h : s.shelves n r p) (read : ¬ p.misread (some x)) (first_eq : first = p.firstOrdinal x)
    (last_eq : last = first + x.span.toNat - 1) (near : ¬ p.tooFar first) (answer : r.issueAnswer p first last = a)
    (commit : s.commitSerial n r p first x.span.toNat = (u, seen)) {available : Bool} (commits : commits true available a.reason = true)
    (l : LaneId) (v : Lane) :
    (s.setLane l v).arrival r.key (some x) true available = (u.setLane l v, { a with seen := seen }) := by
  rw [arrival_issue (shelves_setLane h l v) read first_eq last_eq near, answer, State.commitIf, if_pos commits, commitSerial_setLane, commit]
/-- R115, R134: an issue committed without an accession number: LATE ISSUE or SURPLUS. -/
theorem decides_unissued {s u : State} {l : LaneId} {sq : Seq} {o : Option Observation} {i : Item} {k : Key} {e : Option Enumeration}
    {a : Answer} {r : Reason} (reads : s.reads l sq o i) (key : choose (i.ended o).idents = .key k e) (mode : (s.lane l).mode = .normal)
    (found : ∀ v available, (s.setLane l v).arrival k e true available = (u.setLane l v, a)) (reason : a.reason = r)
    (result : r = .lateIssue ∨ r = .surplus) (consign : u.consign = s.consign) (decision : u.decision = s.decision) :
    Decides s l sq o (s.drawn l ⟨a, some k, none, none⟩) [] { u with consign := (s.countMember l i.consignment true r).consign } := by
  have normal : decide ((s.lane l).mode = .normal) = true := decide_eq_true mode
  have unmatched : r ≠ .matched := by obtain rfl | rfl := result <;> decide
  rw [← normal]
  refine decides_of_found (d := ⟨a, some k, none, none⟩) reads rfl reason (fun v hv _ => ?_) ?_ ?_ consign (by rw [decision])
  · rw [identify_key key, lane_setLane_same, hv, normal]
    exact decideKey_of_ne (found v _) reason unmatched
  · obtain rfl | rfl := result <;> decide
  · obtain rfl | rfl := result <;> decide
/-- R116, R117: a MATCHED issue, with the next accession number. -/
theorem decides_issued {s u : State} {l : LaneId} {sq : Seq} {o : Option Observation} {i : Item} {k : Key} {e : Option Enumeration}
    {a : Answer} {x : Nat} (reads : s.reads l sq o i) (key : choose (i.ended o).idents = .key k e) (mode : (s.lane l).mode = .normal)
    (found : ∀ v, (s.setLane l v).arrival k e true true = (u.setLane l v, a)) (matched : a.reason = .matched)
    (next : s.decision.next = some x) (last : x ≤ 99999999) (consign : u.consign = s.consign) (decision : u.decision = s.decision) :
    Decides s l sq o (s.drawn l ⟨a, some k, some x, none⟩) []
      { u with
        decision := { s.decision with next := some (x + 1), last := some x }
        consign := (s.countMember l i.consignment true .matched).consign } := by
  have normal : decide ((s.lane l).mode = .normal) = true := decide_eq_true mode
  rw [← normal]
  refine decides_of_found (w := { u with decision := { s.decision with next := some (x + 1), last := some x } })
    (d := ⟨a, some k, some x, none⟩) reads rfl matched (fun v hv _ => ?_) (by decide) (by decide) consign rfl
  rw [identify_key key, lane_setLane_same, hv, normal]
  refine (decideKey_of_issued (s := s.setLane l v) (available_of_next next last) (found v) matched (x := x) ?_).trans ?_
  · exact (congrArg DecisionUnit.next decision).trans next
  · simp only [setLane_fields, decision]
    rfl

/-- Settles O48: a LATE ISSUE, then an issue MATCHED or SURPLUS. -/
theorem issuesAreCommitted : Obligations.IssuesAreCommitted := by
  refine ⟨fun s l sq o i x n first last r p rs satisfied claimed reads body read first_eq last_eq near behind mode rs_eq indicates => ?late,
    fun s l sq o i x n first last r p cls reason accession slid gaps before rs satisfied claimed reads body wf hq read first_eq last_eq near
      reaches mode outcome slides leaves before_eq rs_eq indicates => ?live⟩
  case late =>
    subst rs_eq
    obtain ⟨reads, key, table, mem, standing⟩ := reads
    obtain ⟨covers, -⟩ := span_of_read read
    obtain ⟨consign, decision⟩ :=
      issueCommitted_fields s n r { r with lastArrival := some s.table.today } (p.behindRequests first last)
    have decides := decides_unissued reads key mode
      (fun v _ => arrival_committedIssue ⟨table, mem, standing, body⟩ read first_eq last_eq near (issueAnswer_late behind r)
        (commitSerial_late body covers last_eq behind indicates n) rfl l v) rfl (.inl rfl) consign decision
    rw [countMember_of_uncounted fun _ => rfl, ← consign] at decides
    rw [plainDecision_of_ne (by decide) s l 0 r.publisher]
    exact ⟨_, place_puts_of_mem table mem rfl, decides⟩
  case live =>
    subst before_eq rs_eq
    obtain ⟨reads, key, table, mem, standing⟩ := reads
    obtain ⟨covers, few⟩ := span_of_read read
    obtain ⟨asks, arrives⟩ :=
      commit_arrives (a := ⟨s, p, .none⟩) wf hq covers (few.trans (by decide)) last_eq reaches slides leaves r.key
    have commit := commitSerial_eq asks indicates n
    refine ⟨_, _, arrives, place_puts_of_mem table mem rfl, ?_⟩
    obtain ⟨consign, decision⟩ := issueCommitted_fields s n r { r with
      lastArrival := some s.table.today
      body := .serial (ArrivalStep.commit ⟨s, p, .none⟩ r.key r.q first x.span.toNat).part } (p.requests r.q first last slid gaps)
    obtain ⟨within, rfl, ⟨ch, entry, rfl⟩, a, next, low, rfl⟩ | ⟨beyond, rfl, rfl, rfl⟩ := outcome
    · have answer := issueAnswer_matched reaches within
      rw [planClass_of_copy entry] at answer
      have decides := decides_issued reads key mode
        (fun v => arrival_committedIssue ⟨table, mem, standing, body⟩ read first_eq last_eq near answer commit rfl l v) rfl next low
        consign decision
      rw [plainDecision_of_ne (cls_ne_query ch) s l 0 r.publisher]
      exact decides
    · have decides := decides_unissued reads key mode
        (fun v _ => arrival_committedIssue ⟨table, mem, standing, body⟩ read first_eq last_eq near
          (issueAnswer_surplus reaches beyond) commit rfl l v) rfl (.inr rfl) consign decision
      rw [plainDecision_of_ne (by decide) s l 0 r.publisher]
      dsimp only
      rw [← decision]
      exact decides

end Sys2Proof.Machine
end

section
/-! Lanes that do not act, link errors, the entry into ACTIVE, and the hold flag (R60, R61, R63, R66 to R69, R74, R87, R88, R92, R173). -/

namespace Sys2Proof.Machine

/-! The taking of a record, by the state of its lane. -/

/-- R66, R70 to R74, R89, R90, R93, R100: what an ACTIVE lane outside ECHO mode does with a record. -/
def State.actsOn (s : State) (l : LaneId) : StationRecord → State
  | .heartbeat b d => s.noteBelt l b d
  | .itemBegin sq => s.beginItem l sq
  | .observation sq o => s.observe l sq o
  | .itemEnd sq o => s.endItemReading l sq o
  | .atGate sq => s.gate l sq
  | .confirm sq x => s.confirmItem l sq x
/-- R66: every record of a station is taken in one way. -/
theorem exec_eventOf (l : LaneId) (r : StationRecord) (s : State) :
    exec (eventOf l r) s = (s.receive l r fun s => s.actsOn l r).done := by
  cases r <;> rfl
theorem happens_of_receive {s u : State} {l : LaneId} {r : StationRecord} (h : s.receive l r (fun s => s.actsOn l r) = u) :
    Happens (eventOf l r) s u := happens_of_done ((exec_eventOf l r s).trans (congrArg State.done h))
/-- R66, R67: what an ACTIVE lane outside ECHO mode makes of a valid record. -/
theorem happens_of_acts {s u : State} {l : LaneId} {r : StationRecord} (acts : s.acts l r)
    (h : ((s.setLane l (s.lane l).heard).actsOn l r).feedTest l = u) : Happens (eventOf l r) s u :=
  happens_of_receive ((receive_of_acts acts _).trans h)

theorem receive_disabled {s : State} {l : LaneId} (h : (s.lane l).state = .disabled) (r : StationRecord) (act : State → State) :
    s.receive l r act = s := by
  unfold State.receive
  rw [h]
/-- R61: an enabled lane counts a record that is not well formed. -/
theorem receive_malformed {s : State} {l : LaneId} {r : StationRecord} (h : (s.lane l).state ≠ .disabled) (bad : r.wf = false)
    (act : State → State) : s.receive l r act = s.countLinkError l := by
  unfold State.receive
  split
  · next disabled => exact absurd disabled h
  all_goals rw [bad, Bool.not_false, if_pos rfl]
/-- R68: a STOPPED lane counts a record stale. -/
theorem receive_stopped {s : State} {l : LaneId} {r : StationRecord} (h : (s.lane l).state = .stopped) (valid : r.wf = true)
    (other : recordType r ≠ .heartbeat) (act : State → State) : s.receive l r act = s.countStale l := by
  unfold State.receive
  rw [h]
  dsimp only
  rw [valid, Bool.not_true, if_neg Bool.false_ne_true]
  cases r with
  | heartbeat b d => exact absurd rfl other
  | itemBegin | observation | itemEnd | atGate | confirm => rfl
/-- R68, R74: a STOPPED lane takes what a HEARTBEAT reports. -/
theorem receive_stopped_heartbeat {s : State} {l : LaneId} (h : (s.lane l).state = .stopped) (b : Belt) (d : Diverter)
    (act : State → State) : s.receive l (.heartbeat b d) act = s.noteBelt l b d := by
  unfold State.receive
  rw [h]
  rfl
/-- R66, R67, R173: a SILENT lane without sync counts a record stale, and in ECHO mode returns it. -/
theorem receive_unsynced {s : State} {l : LaneId} {r : StationRecord} (h : (s.lane l).state = .silent)
    (unsynced : (s.lane l).sync = false) (valid : r.wf = true) (other : recordType r ≠ .heartbeat) (act : State → State) :
    s.receive l r act = if (s.lane l).mode = .echo then ((s.countStale l).restartSilence l).echo l r
      else (s.countStale l).restartSilence l := by
  have stays : ((s.lane l).sync || recordType r == .heartbeat) = false := by simp [unsynced, other]
  unfold State.receive
  rw [h]
  dsimp only
  rw [valid, stays, Bool.not_true, if_neg Bool.false_ne_true, if_neg Bool.false_ne_true]
/-- R66: a HEARTBEAT, and with the sync flag set any record, brings a SILENT lane to ACTIVE, where it is taken. -/
theorem receive_entering {s : State} {l : LaneId} {r : StationRecord} (h : (s.lane l).state = .silent) (valid : r.wf = true)
    (enters : (s.lane l).sync = true ∨ recordType r = .heartbeat) (act : State → State) :
    s.receive l r act = (s.enterActive l).takeRecord l r act := by
  have goes : ((s.lane l).sync || recordType r == .heartbeat) = true := by
    obtain sync | beat := enters
    · simp [sync]
    · simp [beat]
  unfold State.receive
  rw [h]
  dsimp only
  rw [valid, goes, Bool.not_true, if_neg Bool.false_ne_true, if_pos rfl]
theorem receive_active {s : State} {l : LaneId} {r : StationRecord} (h : (s.lane l).state = .active) (valid : r.wf = true)
    (act : State → State) : s.receive l r act = (s.restartSilence l).takeRecord l r act := by
  unfold State.receive
  rw [h]
  dsimp only
  rw [valid, Bool.not_true, if_neg Bool.false_ne_true]

theorem linkError_disabled {s : State} {l : LaneId} (h : (s.lane l).state = .disabled) : s.linkError l = s := if_pos h
theorem linkError_enabled {s : State} {l : LaneId} (h : (s.lane l).state ≠ .disabled) : s.linkError l = s.countLinkError l :=
  if_neg h

/-- Settles O36: the states of the lane, one after the other. -/
theorem idleLanesOnlyCount : Obligations.IdleLanesOnlyCount := by
  refine ⟨fun s l r disabled => ?disabled, fun s l v enabled hv => ?errors, fun s l b d stopped => ?beat,
    fun s l r stopped valid other => ?stale⟩
  case disabled =>
    have nothing := congrArg State.done (linkError_disabled disabled)
    exact ⟨happens_of_receive (receive_disabled disabled r _), happens_of_done nothing, happens_of_done nothing⟩
  case errors =>
    subst hv
    have counted := congrArg State.done (linkError_enabled enabled)
    exact ⟨happens_of_done counted, happens_of_done counted, fun r bad => happens_of_receive (receive_malformed enabled bad _)⟩
  case beat => exact happens_of_receive (r := .heartbeat b d) (receive_stopped_heartbeat stopped b d _)
  case stale => exact happens_of_receive (receive_stopped stopped valid other _)

/-! The hold flag and the level. -/

/-- R87: the three conditions. -/
theorem holdConditions_iff (v : Lane) : v.holdConditions = true ↔ v.queue.length = v.config.depth ∨
    (v.noSpace = true ∧ (v.mode = .normal ∨ v.mode = .dry)) ∨ v.state ≠ .active := by
  have accounting : accounts v.mode = true ↔ v.mode = .normal ∨ v.mode = .dry := by
    cases v.mode <;> decide
  simp only [Lane.holdConditions, Lane.occupancy, Bool.or_eq_true, Bool.and_eq_true, beq_iff_eq, bne_iff_ne, accounting, or_assoc]
theorem reevaluate_same {s : State} {l : LaneId} (h : (s.lane l).holdConditions = (s.lane l).hold) : s.reevaluate l = s := if_pos h
theorem reevaluate_change {s : State} {l : LaneId} (h : (s.lane l).holdConditions ≠ (s.lane l).hold) :
    s.reevaluate l =
      (s.setLane l (Lane.produce { s.lane l with hold := (s.lane l).holdConditions }
        (if (s.lane l).holdConditions then .hold else .release))).laneNotice l .held (edgeOf (s.lane l).holdConditions) .none :=
  if_neg h

/-- Settles O37: the hold flag, the sending of records, the level. -/
theorem holdFlagAndLevelFollow : Obligations.HoldFlagAndLevelFollow := by
  refine ⟨holdConditions_iff, fun s l => reevaluate_same, fun s l now before => ?rises, fun s l now before => ?falls,
    fun v r free _ => ?begins, fun v r x busy => ?waits, fun s l b h => if_pos h, fun s l b h => if_neg h⟩
  case rises =>
    have change := reevaluate_change (s := s) (l := l) (by simp [now, before])
    rw [now] at change
    exact change
  case falls =>
    have change := reevaluate_change (s := s) (l := l) (by simp [now, before])
    rw [now] at change
    exact change
  case begins => rw [Lane.produce, free]
  case waits => rw [Lane.produce, busy]

/-! SILENT lanes. -/

theorem echo_setLane (s : State) (l : LaneId) (v : Lane) (r : StationRecord) : (s.setLane l v).echo l r =
    s.setLane l (Lane.produce { v with test := { v.test with echoed := bump v.test.echoed } } (.echo r)) := by
  rw [State.echo, State.send, onLane_setLane, onLane_setLane]
/-- R66, R67: a lane that has entered ACTIVE has its silence timer just started. -/
theorem enterActive_started (s : State) (l : LaneId) :
    ((s.enterActive l).lane l).state = .active ∧ (s.enterActive l).restartSilence l = s.enterActive l := by
  have lane := lane_reevaluate ((s.onLane l fun v =>
    { v with state := .active, sync := true, silenceTimer := some v.config.silence }).laneNotice l .silent .falling .none) l
  rw [lane_laneNotice, lane_onLane_same] at lane
  have heard : ((s.enterActive l).lane l).heard = (s.enterActive l).lane l := by
    rw [State.enterActive, lane]
    rfl
  refine ⟨congrArg Lane.state lane, ?_⟩
  rw [restartSilence_eq, heard, setLane_self]

/-- Settles O38: without sync, and into ACTIVE. -/
theorem silentLanesEnterActive : Obligations.SilentLanesEnterActive := by
  refine ⟨fun s l r v silent unsynced valid other hv => ?unsynced, fun s l r silent valid enters => ?enters⟩
  case unsynced =>
    subst hv
    have counted : (s.countStale l).restartSilence l = s.setLane l
        { (s.lane l).heard with counters := { (s.lane l).counters with stale := bump (s.lane l).counters.stale } } :=
      onLane_setLane s l _ _
    refine happens_of_receive ((receive_unsynced silent unsynced valid other _).trans ?_)
    rw [counted, echo_setLane]
    split <;> rfl
  case enters =>
    obtain ⟨active, started⟩ := enterActive_started s l
    have entered := receive_active active valid fun s => s.actsOn l r
    rw [started] at entered
    rw [exec_eventOf, receive_entering silent valid enters, ← entered]
    exact (exec_eventOf l r (s.enterActive l)).symm

/-! HEARTBEATs, the silence timer, and the news of report space. -/

theorem noteBelt_setLane (s : State) (l : LaneId) (v : Lane) (b : Belt) (d : Diverter) :
    (s.setLane l v).noteBelt l b d = s.setLane l { v with belt := some b, diverter := some d } := onLane_setLane s l v _
theorem silenceExpired_active {s : State} {l : LaneId} (h : (s.lane l).state = .active) (running : (s.lane l).silenceTimer ≠ none) :
    s.silenceExpired l =
      ((s.setLane l { (s.lane l).heard with state := .silent }).laneNotice l .silent .rising .none).reevaluate l := by
  obtain ⟨t, timer⟩ := Option.ne_none_iff_exists'.1 running
  have silent : (s.onLane l fun v => { v with state := .silent }).restartSilence l =
      s.setLane l { (s.lane l).heard with state := .silent } := onLane_setLane s l _ _
  rw [State.silenceExpired, timer, h]
  dsimp only
  rw [silent]
theorem silenceExpired_silent {s : State} {l : LaneId} (h : (s.lane l).state = .silent) (running : (s.lane l).silenceTimer ≠ none) :
    s.silenceExpired l = s.setLane l (s.lane l).heard := by
  obtain ⟨t, timer⟩ := Option.ne_none_iff_exists'.1 running
  rw [State.silenceExpired, timer, h]
  rfl
theorem silenceExpired_none {s : State} {l : LaneId}
    (h : (s.lane l).silenceTimer = none ∨ (s.lane l).state = .disabled ∨ (s.lane l).state = .stopped) : s.silenceExpired l = s := by
  unfold State.silenceExpired
  split
  · next timer active => simp [timer, active] at h
  · next timer silent => simp [timer, silent] at h
  · rfl
theorem takeNews_cons {s : State} {l : LaneId} {b : Bool} {rest : List Bool} (h : (s.lane l).news = b :: rest) :
    s.takeNews l = (s.setLane l { s.lane l with noSpace := b, news := rest }).reevaluate l := by
  rw [State.takeNews, h]
  rfl
theorem takeNews_nil {s : State} {l : LaneId} (h : (s.lane l).news = []) : s.takeNews l = s := by
  rw [State.takeNews, h]

/-- Settles O39: a HEARTBEAT, the expiries in each state, the news. -/
theorem heartbeatsTimersAndNews : Obligations.HeartbeatsTimersAndNews :=
  ⟨fun s l _ _ acts => happens_of_acts (r := .heartbeat _ _) acts (congrArg (State.feedTest · l) (noteBelt_setLane s l _ _ _)),
    fun _ _ active running => happens_of_done (congrArg State.done (silenceExpired_active active running)),
    fun _ _ silent running => happens_of_done (congrArg State.done (silenceExpired_silent silent running)),
    fun _ _ none => happens_of_done (congrArg State.done (silenceExpired_none none)),
    fun _ _ none => happens_of_done (congrArg State.done (takeNews_nil none)),
    fun _ _ _ _ news => happens_of_done (congrArg State.done (takeNews_cons news))⟩

end Sys2Proof.Machine
end

section
/-! Breaches of sequence, and admissions (R70 to R73, R86, R87, R92, R100, R133, R185). -/

namespace Sys2Proof.Machine

/-! Stale records. -/

/-- R70: the stale range, as the numbers that 1 to 64 steps bring to the expected number. -/
theorem stale_iff (v : Lane) (sq : Seq) : v.stale sq = true ↔
    ∃ (e : Seq) (i : Nat), v.expected = some e ∧ 1 ≤ i ∧ i ≤ 64 ∧ sq + BitVec.ofNat 16 i = e := by
  unfold Lane.stale Config.staleRange
  split
  · next e expected =>
    simp only [expected, decide_eq_true_iff, Option.some.injEq, exists_and_left, exists_eq_left']
    constructor
    · rintro ⟨low, high⟩
      refine ⟨(e - sq).toNat, low, high, ?_⟩
      rw [BitVec.ofNat_toNat, BitVec.setWidth_eq, BitVec.add_comm, BitVec.sub_add_cancel]
    · rintro ⟨i, low, high, rfl⟩
      rw [BitVec.add_comm, BitVec.add_sub_cancel, BitVec.toNat_ofNat, Nat.mod_eq_of_lt (by omega)]
      exact ⟨low, high⟩
  · next expected => simp [expected]
theorem holds_eq_false_iff (v : Lane) (sq : Seq) : v.holds sq = false ↔ ∀ i ∈ v.queue, i.sq ≠ sq := by
  simp [Lane.holds]

/-- R81: the lane with one more stale record. -/
def Lane.countStale (v : Lane) : Lane := { v with counters := { v.counters with stale := bump v.counters.stale } }
theorem countStale_setLane (s : State) (l : LaneId) (v : Lane) : (s.setLane l v).countStale l = s.setLane l v.countStale :=
  onLane_setLane s l v Lane.countStale
theorem misdirected_stale {s : State} {l : LaneId} {sq : Seq} (h : (s.lane l).stale sq = true) (type : RecordType) :
    s.misdirected l type sq = s.countStale l := if_pos h
theorem misdirected_violation {s : State} {l : LaneId} {sq : Seq} (h : (s.lane l).stale sq = false) (type : RecordType) :
    s.misdirected l type sq = s.violate l .unknownItem type sq := if_neg (by simp [h])
theorem observe_misdirected {s : State} {l : LaneId} {sq : Seq} (h : (s.lane l).namesReading sq = false) (o : Observation) :
    s.observe l sq o = s.misdirected l .observation sq := if_neg (by simp [h])
theorem endItemReading_misdirected {s : State} {l : LaneId} {sq : Seq} (h : (s.lane l).namesReading sq = false)
    (o : Option Observation) : s.endItemReading l sq o = s.misdirected l .itemEnd sq := if_neg (by simp [h])
theorem gate_stale {s : State} {l : LaneId} {sq : Seq} (absent : (s.lane l).holds sq = false) (h : (s.lane l).stale sq = true) :
    s.gate l sq = s.countStale l := by
  simp [State.gate, absent, h]
theorem gate_violation {s : State} {l : LaneId} {sq : Seq} (absent : (s.lane l).holds sq = false) (h : (s.lane l).stale sq = false)
    (queue : (s.lane l).queue ≠ []) : s.gate l sq = s.violate l .unknownItem .atGate sq := by
  simp [State.gate, absent, h, queue]
/-- R100: a CONFIRM that names no held item is stale. -/
theorem confirmItem_stale {s : State} {l : LaneId} {sq : Seq} (h : ∀ x, (s.lane l).held = some x → x.item.sq ≠ sq) (outlet : Byte) :
    s.confirmItem l sq outlet = s.countStale l := by
  unfold State.confirmItem
  split
  · rfl
  · next x held => exact if_neg (h x held)

/-! Violations. -/

theorem setLane_setConsignment (s : State) (l k : LaneId) (v : Lane) (c : Option Consignment) :
    (s.setLane l v).setConsignment k c = (s.setConsignment k c).setLane l v := rfl
/-- What a lane files as it leaves service reads of the lane its items, its settings and its sync alone. -/
theorem leavingFilings_setLane {s : State} {l : LaneId} {v : Lane} (mode : v.mode = (s.lane l).mode)
    (config : v.config = (s.lane l).config) (queue : v.queue = (s.lane l).queue) (held : v.held = (s.lane l).held)
    (sync : v.test.inSync = (s.lane l).test.inSync) (reason : Reason) :
    (s.setLane l v).leavingFilings l reason = s.leavingFilings l reason := by
  have parcel : (s.setLane l v).consignment l = s.consignment l := rfl
  simp only [State.leavingFilings, State.leavingRecords, lane_setLane_same, setLane_fields, parcel, mode, config, queue, held, sync]
/-- R73: the lane with its violation counted and recorded. -/
def Lane.violated (v : Lane) (cause : ViolationCause) (type : RecordType) (sq : Seq) : Lane :=
  { v with
    counters := { v.counters with violations := bump v.counters.violations }
    cause := cause
    violation := some ⟨type, sq, v.expected⟩ }
/-- R73: the lane STOPPED. -/
def Lane.stopped (v : Lane) : Lane := { v with state := .stopped, silenceTimer := none }
/-- R73, R88, R104: a violation as one effect. -/
theorem violate_eq (s : State) (l : LaneId) (cause : ViolationCause) (type : RecordType) (sq : Seq) :
    s.violate l cause type sq = s.stoppedBy l cause type sq := by
  have swept : (s.setLane l ((s.lane l).violated cause type sq)).sweepLane l .laneStopped =
      ((s.setConsignment l none).setLane l ((s.lane l).violated cause type sq).swept).files (s.leavingFilings l .laneStopped) := by
    rw [sweepLane_eq, lane_setLane_same, setLane_setConsignment, setLane_setLane, leavingFilings_setLane]
    all_goals rfl
  calc s.violate l cause type sq
    _ = ((((s.setLane l ((s.lane l).violated cause type sq)).sweepLane l .laneStopped).onLane l Lane.stopped).laneNotice l
          .stopped .rising (.violation cause)).reevaluate l := rfl
    _ = (((s.setConsignment l none).setLane l ((s.lane l).violated cause type sq).swept.stopped).files
          (s.leavingFilings l .laneStopped ++ [.lane l .stopped .rising (.violation cause)])).reevaluate l := by
        rw [swept, onLane_setLane_files, files_append]
        all_goals rfl
    _ = s.stoppedBy l cause type sq := by
        rw [reevaluate_inactive, List.append_assoc]
        · rfl
        · simp [Lane.stopped]
/-- R67, R73: the silence timer that the breaking record restarts is stopped again. -/
theorem stoppedBy_heard (s : State) (l : LaneId) (cause : ViolationCause) (type : RecordType) (sq : Seq) :
    (s.setLane l (s.lane l).heard).stoppedBy l cause type sq = s.stoppedBy l cause type sq := by
  have held : (s.setLane l (s.lane l).heard).heldFiling l = s.heldFiling l := by
    rw [State.heldFiling, lane_setLane_same]
    rfl
  rw [State.stoppedBy, leavingFilings_setLane, held, lane_setLane_same, setLane_setConsignment, setLane_setLane]
  all_goals rfl
theorem state_toldHold (v : Lane) : v.toldHold.state = v.state := by
  unfold Lane.toldHold
  split
  · rfl
  · rw [produce_eq]
theorem state_stoppedBy (s : State) (l : LaneId) (cause : ViolationCause) (type : RecordType) (sq : Seq) :
    ((s.stoppedBy l cause type sq).lane l).state = .stopped := by
  rw [State.stoppedBy, lane_files, lane_setLane_same, state_toldHold]
/-- R175: a lane that is not ACTIVE sends no TEST ITEM. -/
theorem feedTest_inactive {s : State} {l : LaneId} (h : (s.lane l).state ≠ .active) : s.feedTest l = s := by
  have none : (s.lane l).testItems Config.maxOutstanding = s.lane l := if_neg fun active => h active.1
  rw [State.feedTest, State.onLane, none, ite_self, setLane_self]
/-- R73: a record that breaks the sequence of an ACTIVE lane. -/
theorem happens_violation {s : State} {l : LaneId} {r : StationRecord} {sq : Seq} {cause : ViolationCause} (acts : s.acts l r)
    (h : (s.setLane l (s.lane l).heard).actsOn l r = (s.setLane l (s.lane l).heard).violate l cause (recordType r) sq) :
    Happens (eventOf l r) s (s.stoppedBy l cause (recordType r) sq) := by
  refine happens_of_acts acts ?_
  rw [h, violate_eq, stoppedBy_heard]
  exact feedTest_inactive (by rw [state_stoppedBy]; decide)

/-! ITEM BEGIN. -/

theorem beginItem_whileReading {s : State} {l : LaneId} (h : (s.lane l).readingItem.isSome = true) (sq : Seq) :
    s.beginItem l sq = s.violate l .beginWhileReading .itemBegin sq := if_pos h
theorem beginItem_broken {s : State} {l : LaneId} {sq e : Seq} (reading : (s.lane l).readingItem = none)
    (expected : (s.lane l).expected = some e) (ne : e ≠ sq) :
    s.beginItem l sq = s.violate l .sequenceBreak .itemBegin sq := by
  simp [State.beginItem, reading, expected, ne]
/-- R71: an ITEM BEGIN in sequence, with no item being read. -/
theorem beginItem_inSequence {s : State} {l : LaneId} {sq : Seq} (reading : (s.lane l).readingItem = none)
    (expected : ∀ e, (s.lane l).expected = some e → e = sq) : s.beginItem l sq =
      if (s.lane l).hold = true ∨ (accounts (s.lane l).mode = true ∧ s.report.itemRoom = false) then s.refuseItem l sq
      else s.admitItem l sq := by
  have inSequence : ¬ ((s.lane l).expected.isSome = true ∧ (s.lane l).expected ≠ some sq) := by
    rintro ⟨isSome, ne⟩
    obtain ⟨e, some⟩ := Option.isSome_iff_exists.1 isSome
    exact ne (expected e some ▸ some)
  simp only [State.beginItem, reading, Option.isSome_none, Bool.false_eq_true, if_false, inSequence]

/-- Settles O40: the stale range, the stale records, the violations. -/
theorem breachesAreStaleOrViolations : Obligations.BreachesAreStaleOrViolations := by
  refine ⟨stale_iff, fun s l r sq acts breach => ?stale, fun s l r sq cause acts breach => ?violation⟩
  case stale =>
    refine happens_of_acts acts (congrArg (State.feedTest · l) (Eq.trans ?_ (countStale_setLane s l (s.lane l).heard)))
    have lane := lane_setLane_same s l (s.lane l).heard
    obtain ⟨rfl, absent, stale⟩ | ⟨o, rfl, unread, stale⟩ | ⟨o, rfl, unread, stale⟩ | ⟨x, rfl, unheld⟩ := breach
    · exact gate_stale (by rw [lane]; exact (holds_eq_false_iff _ sq).2 absent) (by rwa [lane])
    · exact (observe_misdirected (by rwa [lane]) o).trans (misdirected_stale (by rwa [lane]) _)
    · exact (endItemReading_misdirected (by rwa [lane]) o).trans (misdirected_stale (by rwa [lane]) _)
    · exact confirmItem_stale (by rwa [lane]) x
  case violation =>
    refine happens_violation acts ?_
    have lane := lane_setLane_same s l (s.lane l).heard
    obtain ⟨rfl, reading, rfl⟩ | ⟨rfl, reading, ⟨e, expected, ne⟩, rfl⟩ | ⟨rfl, absent, fresh, queue, rfl⟩ | ⟨o, rfl, unread, fresh, rfl⟩ |
      ⟨o, rfl, unread, fresh, rfl⟩ := breach
    · exact beginItem_whileReading (by rwa [lane]) sq
    · exact beginItem_broken (by rwa [lane]) (by rwa [lane]) ne
    · exact gate_violation (by rw [lane]; exact (holds_eq_false_iff _ sq).2 absent) (by rwa [lane]) (by rwa [lane])
    · exact (observe_misdirected (by rwa [lane]) o).trans (misdirected_violation (by rwa [lane]) _)
    · exact (endItemReading_misdirected (by rwa [lane]) o).trans (misdirected_violation (by rwa [lane]) _)

/-! Admissions. -/

/-- R70, R86: the lane after a refusal. -/
def Lane.refusing (v : Lane) (sq : Seq) : Lane :=
  Lane.produce { v with expected := some sq, counters := { v.counters with refused := bump v.counters.refused } } (.refuse sq)
/-- R86: the lane with the new item's record at the tail of its queue. -/
def Lane.queued (v : Lane) (l : LaneId) (sq : Seq) (number : Option Nat) (reserved : Bool) : Lane :=
  { v with
    expected := some (sq + 1#16)
    queue := v.queue ++ [newItem l sq number reserved]
    counters := { v.counters with admitted := bump v.counters.admitted } }
/-- R70, R86: the lane after an admission. -/
def Lane.admitting (v : Lane) (l : LaneId) (sq : Seq) (number : Option Nat) (reserved : Bool) : Lane :=
  (v.queued l sq number reserved).produce (.admission sq)
/-- R86, R133: an item slot reserved, and one more member counted in the open consignment. -/
def State.reserving (s : State) (l : LaneId) : State := ((s.onReport ReportUnit.reserveItem).joinConsignment l).1

theorem refuseItem_setLane (s : State) (l : LaneId) (v : Lane) (sq : Seq) :
    (s.setLane l v).refuseItem l sq = s.setLane l (v.refusing sq) := by
  rw [State.refuseItem, State.send, onLane_setLane, onLane_setLane]
  rfl
/-- R133: joining the consignment reads and changes no lane. -/
theorem joinConsignment_setLane (s : State) (l : LaneId) (v : Lane) :
    ((s.setLane l v).onReport ReportUnit.reserveItem).joinConsignment l =
      ((s.reserving l).setLane l v, (s.consignment l).map (·.number)) := by
  have parcel : ((s.setLane l v).onReport ReportUnit.reserveItem).consignment l = s.consignment l := rfl
  have parcel' : (s.onReport ReportUnit.reserveItem).consignment l = s.consignment l := rfl
  unfold State.reserving State.joinConsignment
  rw [parcel, parcel']
  cases s.consignment l <;> rfl
theorem reserving_of_closed {s : State} {l : LaneId} (h : s.consignment l = none) :
    s.reserving l = s.onReport ReportUnit.reserveItem := by
  have parcel : (s.onReport ReportUnit.reserveItem).consignment l = none := h
  rw [State.reserving, State.joinConsignment, parcel]
theorem reserving_of_open {s : State} {l : LaneId} {c : Consignment} (h : s.consignment l = some c) : s.reserving l =
    (s.onReport ReportUnit.reserveItem).setConsignment l (some { c with counted := min (c.counted + 1) 65535 }) := by
  have parcel : (s.onReport ReportUnit.reserveItem).consignment l = some c := h
  rw [State.reserving, State.joinConsignment, parcel]
  rfl
theorem reserving_eq (s : State) (l : LaneId) : s.reserving l =
    { s with
      consign := (s.reserving l).consign
      report := { s.report with reservedItem := s.report.reservedItem + 1 } } := by
  cases h : s.consignment l with
  | none => rw [reserving_of_closed h]; rfl
  | some c => rw [reserving_of_open h]; rfl
theorem admitItem_eq {s u : State} {l : LaneId} {v : Lane} {number : Option Nat}
    (h : (s.setLane l v).reserveAdmission l = (u.setLane l v, number)) (sq : Seq) : (s.setLane l v).admitItem l sq =
      (if accounts v.mode = true then
        ((u.setLane l (v.admitting l sq number (accounts v.mode))).levelNotice l v.level).settleReport
      else (u.setLane l (v.admitting l sq number (accounts v.mode))).levelNotice l v.level).reevaluate l := by
  have joined : ((u.setLane l v).onLane l fun v => v.queued l sq number (accounts v.mode)).send l (.admission sq) =
      u.setLane l (v.admitting l sq number (accounts v.mode)) := by
    rw [State.send, onLane_setLane, onLane_setLane]
    rfl
  rw [← joined]
  unfold State.admitItem
  rw [h, lane_setLane_same]
  rfl
/-- R86, R92: an admission of a lane whose items hold no report slot. -/
theorem admitItem_unaccounted {s : State} {l : LaneId} {v : Lane} (h : accounts v.mode = false) (sq : Seq) :
    (s.setLane l v).admitItem l sq = ((s.setLane l (v.admitting l sq none false)).levelNotice l v.level).reevaluate l := by
  have reserved : (s.setLane l v).reserveAdmission l = (s.setLane l v, none) := by
    rw [State.reserveAdmission, lane_setLane_same, h, if_neg Bool.false_ne_true]
  rw [admitItem_eq reserved, h, if_neg Bool.false_ne_true]
/-- R86, R92, R133, R185: an admission of a lane whose items hold report slots. -/
theorem admitItem_accounted {s : State} {l : LaneId} {v : Lane} (h : accounts v.mode = true) (sq : Seq) :
    (s.setLane l v).admitItem l sq =
      ((((s.reserving l).setLane l (v.admitting l sq ((s.consignment l).map (·.number)) true)).levelNotice l
        v.level).settleReport).reevaluate l := by
  have reserved : (s.setLane l v).reserveAdmission l = ((s.reserving l).setLane l v, (s.consignment l).map (·.number)) := by
    rw [State.reserveAdmission, lane_setLane_same, h, if_pos rfl, joinConsignment_setLane]
  rw [admitItem_eq reserved, h, if_pos rfl]
theorem mode_reevaluate (s : State) (l : LaneId) : ((s.reevaluate l).lane l).mode = (s.lane l).mode := by
  rw [lane_reevaluate]
theorem mode_settleReport (s : State) (l : LaneId) : (s.settleReport.lane l).mode = (s.lane l).mode := by
  rw [lane_settleReport]
theorem mode_admitting (v : Lane) (l : LaneId) (sq : Seq) (number : Option Nat) (reserved : Bool) :
    (v.admitting l sq number reserved).mode = v.mode := by
  rw [Lane.admitting, produce_eq]
  rfl
theorem itemRoom_eq_false_iff (r : ReportUnit) : r.itemRoom = false ↔ 496 ≤ r.usedItem := by
  rw [ReportUnit.itemRoom, decide_eq_false_iff_not, Nat.not_lt, Config.itemSlots]

/-- R71, R86: an ITEM BEGIN in sequence, at a lane that has heard it. -/
theorem beginItem_setLane {s : State} {l : LaneId} {v : Lane} {sq : Seq} (reading : v.readingItem = none)
    (expected : ∀ e, v.expected = some e → e = sq) : (s.setLane l v).beginItem l sq =
      if v.hold = true ∨ (accounts v.mode = true ∧ 496 ≤ s.report.usedItem) then s.setLane l (v.refusing sq)
      else (s.setLane l v).admitItem l sq := by
  have lane := lane_setLane_same s l v
  have begins := beginItem_inSequence (s := s.setLane l v) (l := l) (sq := sq) (by rwa [lane]) (by rwa [lane])
  simpa only [lane, itemRoom_eq_false_iff, refuseItem_setLane, setLane_fields] using begins

/-- Settles O41: the refusal, the admission of a TEST lane, the admission of a NORMAL or DRY lane. -/
theorem itemsAreRefusedOrAdmitted : Obligations.ItemsAreRefusedOrAdmitted := by
  refine ⟨fun s l sq acts reading expected full => ?refused, fun s l sq acts reading expected clear test => ?test,
    fun s l sq acts reading expected clear accounted room => ?accounted⟩
  case refused =>
    refine happens_of_acts (r := .itemBegin sq) acts (congrArg (State.feedTest · l) ?_)
    exact (beginItem_setLane (v := (s.lane l).heard) reading expected).trans (if_pos full)
  case test =>
    have unaccounted : accounts (s.lane l).mode = false := by rw [test]; rfl
    have admitted : (s.setLane l (s.lane l).heard).beginItem l sq = (s.setLane l (s.lane l).heard).admitItem l sq :=
      (beginItem_setLane (v := (s.lane l).heard) reading expected).trans (if_neg (by simp [Lane.heard, clear, unaccounted]))
    rw [admitItem_unaccounted (v := (s.lane l).heard) unaccounted] at admitted
    refine ⟨_, rfl, ?_⟩
    exact happens_of_acts (r := .itemBegin sq) acts (congrArg (State.feedTest · l) admitted)
  case accounted =>
    have admitted : (s.setLane l (s.lane l).heard).beginItem l sq = (s.setLane l (s.lane l).heard).admitItem l sq :=
      (beginItem_setLane (v := (s.lane l).heard) reading expected).trans
        (if_neg (by simp [Lane.heard, clear, accounted, Nat.not_le.2 room]))
    rw [admitItem_accounted (v := (s.lane l).heard) accounted] at admitted
    refine ⟨(s.reserving l).setLane l ((s.lane l).heard.admitting l sq ((s.consignment l).map (·.number)) true),
      congrArg (State.setLane · l _) (reserving_eq s l), fun closed => ?_, fun c opened => ?_, ?_⟩
    · rw [(setLane_fields _ _ _).2.2.2.2.2.2.1, reserving_of_closed closed]
      rfl
    · rw [(setLane_fields _ _ _).2.2.2.2.2.2.1, reserving_of_open opened]
      rfl
    · refine happens_of_acts (r := .itemBegin sq) acts ((congrArg (State.feedTest · l) admitted).trans (feedTest_eq fun test => ?_))
      rw [mode_reevaluate, mode_settleReport, lane_levelNotice, lane_setLane_same, mode_admitting] at test
      exact absurd accounted (by rw [show (s.lane l).mode = .test from test]; decide)

end Sys2Proof.Machine
end

section
/-! The confirm window and the gate (R81, R93 to R103, R172). -/

namespace Sys2Proof.Machine

/-! The confirm window. -/

/-- R101: the lane with its window closed, spelled by the fault count. -/
theorem windowClosed_eq {v : Lane} {h : HeldItem} (held : v.held = some h) (r : ConfirmResult) :
    v.windowClosed r = ({ v with held := none } : Lane).countFault r := by
  unfold Lane.windowClosed
  rw [held]
  cases r with
  | confirmed | unconfirmed => rfl
  | misrouted | noConfirm =>
    have level : decide (2 ≤ v.faults) = decide (Config.faultLimit ≤ v.faults + 1) := by simp [Config.faultLimit]
    dsimp only
    rw [level]
    rfl
theorem windowClosed_of_none {v : Lane} (h : v.held = none) (r : ConfirmResult) : v.windowClosed r = v := by
  unfold Lane.windowClosed
  rw [h]
/-- R99 to R101: the closing of a window leaves the settings, the queue and the state of its lane. -/
theorem windowClosed_fields (v : Lane) (r : ConfirmResult) :
    (v.windowClosed r).mode = v.mode ∧ (v.windowClosed r).config = v.config ∧ (v.windowClosed r).queue = v.queue := by
  unfold Lane.windowClosed
  split <;> exact ⟨rfl, rfl, rfl⟩
theorem windowClosed_heard (v : Lane) (r : ConfirmResult) : v.heard.windowClosed r = (v.windowClosed r).heard := by
  have held : v.heard.held = v.held := rfl
  unfold Lane.windowClosed
  rw [held]
  split <;> rfl
/-- R99 to R101: the closing of a window as one effect; with none open, no effect. -/
theorem closeWindow_eq (s : State) (l : LaneId) (r : ConfirmResult) :
    s.closeWindow l r = (s.setLane l ((s.lane l).windowClosed r)).files (s.windowFilings l r) := by
  unfold State.closeWindow State.windowFilings State.windowRecords
  cases held : (s.lane l).held with
  | none => simp [windowClosed_of_none held, setLane_self]
  | some h =>
    dsimp only
    rw [endItem_eq, State.onLane, ← windowClosed_eq held, lane_setLane_same, (windowClosed_fields _ r).1, files_append]
    split <;> rfl
/-- What a window files reads of its lane the held item, the fault count and the mode alone. -/
theorem windowFilings_heard (s : State) (l : LaneId) (r : ConfirmResult) :
    (s.setLane l (s.lane l).heard).windowFilings l r = s.windowFilings l r := by
  unfold State.windowFilings State.windowRecords
  rw [lane_setLane_same, windowClosed_heard]
  rfl

/-! Items passed over. -/

/-- R96: n more items missing. -/
def Lane.countMissing (v : Lane) (n : Nat) : Lane :=
  { v with counters := { v.counters with missing := Nat.repeat bump n v.counters.missing } }
theorem missingRecords_setLane {s : State} {l : LaneId} {v : Lane} (mode : v.mode = (s.lane l).mode)
    (config : v.config = (s.lane l).config) (fs : List Filing) (items : List Item) :
    ((s.setLane l v).files fs).missingRecords l items = s.missingRecords l items := by
  simp only [State.missingRecords, lane_files, lane_setLane_same, mode, config]
theorem missItem_eq (s : State) (l : LaneId) (i : Item) : State.missItem l s i =
    (s.setLane l ((s.lane l).countMissing 1)).files ((s.missingRecords l [i]).map .item) := by
  unfold State.missItem State.missingRecords
  rw [endItem_eq, State.onCounters, lane_onLane_same]
  rfl
/-- R96: the items passed over leave from head to tail. -/
theorem missItems_eq (s : State) (l : LaneId) (items : List Item) : items.foldl (State.missItem l) s =
    (s.setLane l ((s.lane l).countMissing items.length)).files ((s.missingRecords l items).map .item) := by
  induction items using List.reverseRecOn with
  | nil =>
    have none : s.missingRecords l [] = [] := by simp [State.missingRecords]
    rw [none]
    exact (setLane_self s l).symm
  | append_singleton items i ih =>
    have records : s.missingRecords l (items ++ [i]) = s.missingRecords l items ++ s.missingRecords l [i] := by
      unfold State.missingRecords
      split <;> simp
    rw [List.foldl_append, ih, List.foldl_cons, List.foldl_nil, missItem_eq, missingRecords_setLane, lane_files,
      lane_setLane_same, setLane_files_setLane, records, List.map_append, List.length_append] <;> rfl
/-- R93, R96: the lane with its window closed and the items ahead passed over, before the item named is dealt with. -/
def Lane.passed (v : Lane) (ahead rest : List Item) : Lane :=
  { (v.windowClosed .noConfirm).countMissing ahead.length with queue := rest }
theorem cut_eq (v : Lane) (ahead rest : List Item) : v.cut ahead rest = v.heard.passed ahead rest := by
  have missing : (v.windowClosed .noConfirm).counters.missing = v.counters.missing := by
    unfold Lane.windowClosed
    split <;> rfl
  rw [Lane.passed, windowClosed_heard, Lane.cut, ← missing]
  rfl

/-! The item named. -/

/-- R93: an item of the number is the first that the walk from the head finds. -/
theorem walk_eq {sq : Seq} {ahead rest : List Item} {i : Item} (named : i.sq = sq) (others : ∀ j ∈ ahead, j.sq ≠ sq) :
    (ahead ++ i :: rest).takeWhile (fun j => j.sq != sq) = ahead ∧ (ahead ++ i :: rest).dropWhile (fun j => j.sq != sq) = i :: rest := by
  have passes : ∀ j ∈ ahead, (j.sq != sq) = true := by simpa using others
  have stops : (i.sq != sq) = false := by simpa using named
  rw [List.takeWhile_append_of_pos passes, List.dropWhile_append_of_pos passes]
  simp [stops]
/-- R93 to R96: an AT GATE that names an item of the queue. -/
theorem pairGate_eq {s : State} {l : LaneId} {sq : Seq} {ahead rest : List Item} {i : Item} (queue : (s.lane l).queue = ahead ++ i :: rest)
    (named : i.sq = sq) (others : ∀ j ∈ ahead, j.sq ≠ sq) : s.pairGate l sq =
      ((((s.setLane l ((s.lane l).passed ahead rest)).files
        (s.windowFilings l .noConfirm ++ (s.missingRecords l ahead).map .item)).pairHead l i).levelNotice l (s.lane l).level).reevaluate l := by
  obtain ⟨takes, drops⟩ := walk_eq (rest := rest) named others
  obtain ⟨mode, config, -⟩ := windowClosed_fields (s.lane l) .noConfirm
  unfold State.pairGate
  dsimp only
  rw [queue, takes, drops, closeWindow_eq, missItems_eq, missingRecords_setLane mode config, lane_files, lane_setLane_same,
    setLane_files_setLane, onLane_setLane_files] <;> rfl
theorem gate_named {s : State} {l : LaneId} {sq : Seq} (h : (s.lane l).holds sq = true) : s.gate l sq = s.pairGate l sq := if_pos h
theorem gate_phantom {s : State} {l : LaneId} {sq : Seq} (queue : (s.lane l).queue = []) (fresh : (s.lane l).stale sq = false) :
    s.gate l sq = s.phantom l sq := by
  simp [State.gate, Lane.holds, queue, fresh]

/-- R81: a DIVERT to the run-out. -/
theorem sendRunOut_setLane (s : State) (l : LaneId) (v : Lane) (fs : List Filing) (sq : Seq) :
    ((s.setLane l v).files fs).sendRunOut l sq = (s.setLane l (Lane.produce
      { v with counters := { v.counters with runOut := bump v.counters.runOut } } (.divert sq v.config.outlets.runout))).files fs := by
  rw [State.sendRunOut, State.onCounters, State.send, onLane_setLane_files, onLane_setLane_files, lane_files, lane_setLane_same]
  · exact config_produce _ _
  · rfl
/-- R99: a record produced and a window opened do not meet. -/
theorem openWindow_produce (v : Lane) (r : LaneOut) (i : Item) (outlet : Fin 8) :
    (v.produce r).openWindow i outlet = (v.openWindow i outlet).produce r := by
  cases sending : v.sending <;> simp [Lane.produce, Lane.openWindow, sending]
theorem runOutRecords_setLane {s : State} {l : LaneId} {v : Lane} (mode : v.mode = (s.lane l).mode)
    (config : v.config = (s.lane l).config) (i : Item) (reason : Reason) (fault : Bool) :
    (s.setLane l v).runOutRecords l i reason fault = s.runOutRecords l i reason fault := by
  simp only [State.runOutRecords, lane_setLane_same, mode, config]

/-- R94: the item goes to its outlet and is held. -/
theorem pairHead_diverted {v : Lane} {i : Item} {d : Decision} (unread : i.state ≠ .reading) (level : v.faultLevel = false)
    (decision : i.decision = some d) (mode : v.mode ≠ .dry) (s : State) (l : LaneId) (fs : List Filing) :
    ((s.setLane l v).files fs).pairHead l i = (s.setLane l (Lane.produce
      { v with
        held := some ⟨{ i with state := .confirming }, d.outlet, v.config.confirm⟩
        counters := { v.counters with diverted := bump v.counters.diverted } } (.divert i.sq d.outlet))).files fs := by
  have outlet : i.decidedOutlet v.config.outlets = d.outlet := by rw [Item.decidedOutlet, decision]
  rw [State.pairHead, if_neg unread, lane_files, lane_setLane_same, if_neg (by simp [level]), State.divertItem]
  dsimp only
  rw [lane_files, lane_setLane_same, if_neg mode, outlet, State.onCounters, State.send, onLane_setLane_files, onLane_setLane_files,
    onLane_setLane_files, openWindow_produce]
  · rfl
  · rfl
  · exact config_produce _ _
  · rfl
/-- R172: in a DRY lane the item goes to the run-out and is held. -/
theorem pairHead_dry {v : Lane} {i : Item} (unread : i.state ≠ .reading) (level : v.faultLevel = false) (mode : v.mode = .dry)
    (s : State) (l : LaneId) (fs : List Filing) :
    ((s.setLane l v).files fs).pairHead l i = (s.setLane l (Lane.produce
      { v with
        held := some ⟨{ i with state := .confirming }, v.config.outlets.runout, v.config.confirm⟩
        counters := { v.counters with runOut := bump v.counters.runOut } } (.divert i.sq v.config.outlets.runout))).files fs := by
  rw [State.pairHead, if_neg unread, lane_files, lane_setLane_same, if_neg (by simp [level]), State.divertItem]
  dsimp only
  rw [lane_files, lane_setLane_same, if_pos mode, sendRunOut_setLane, onLane_setLane_files, openWindow_produce]
  all_goals rfl
/-- R95: an item still being read is LATE. -/
theorem pairHead_late {v : Lane} {i : Item} (reading : i.state = .reading) (s : State) (l : LaneId) (fs : List Filing) :
    ((s.setLane l v).files fs).pairHead l i = (s.setLane l (Lane.produce
      { v with counters := { v.counters with late := bump v.counters.late, runOut := bump v.counters.runOut } }
      (.divert i.sq v.config.outlets.runout))).files (fs ++ ((s.setLane l v).runOutRecords l i .late false).map .item) := by
  rw [State.pairHead, if_pos reading, State.lateItem]
  dsimp only
  rw [State.onCounters, onLane_setLane_files, sendRunOut_setLane, endItem_eq, lane_files, lane_files, lane_setLane_same, lane_setLane_same,
    produce_eq, files_append, State.runOutRecords, lane_setLane_same]
  all_goals rfl
/-- R102: under the DIVERTER FAULT level a decided item goes to the run-out. -/
theorem pairHead_faulted {v : Lane} {i : Item} (unread : i.state ≠ .reading) (level : v.faultLevel = true) (s : State) (l : LaneId)
    (fs : List Filing) :
    ((s.setLane l v).files fs).pairHead l i = (s.setLane l (Lane.produce
      { v with counters := { v.counters with runOut := bump v.counters.runOut } } (.divert i.sq v.config.outlets.runout))).files
        (fs ++ ((s.setLane l v).runOutRecords l i (i.reasonOr .incomplete) true).map .item) := by
  rw [State.pairHead, if_neg unread, lane_files, lane_setLane_same, if_pos level, State.faultItem, sendRunOut_setLane, endItem_eq,
    lane_files, lane_files, lane_setLane_same, lane_setLane_same, produce_eq, files_append, State.runOutRecords, lane_setLane_same]

/-- R98: a PHANTOM. -/
theorem phantom_eq (s : State) (l : LaneId) (sq : Seq) : s.phantom l sq =
    ((s.setLane l (Lane.produce
      { (s.lane l).windowClosed .noConfirm with counters := { ((s.lane l).windowClosed .noConfirm).counters with
          phantom := bump ((s.lane l).windowClosed .noConfirm).counters.phantom
          runOut := bump ((s.lane l).windowClosed .noConfirm).counters.runOut } }
      (.divert sq ((s.lane l).windowClosed .noConfirm).config.outlets.runout))).files (s.windowFilings l .noConfirm)).laneNotice l .phantom
        .event (.item sq) := by
  unfold State.phantom
  dsimp only
  rw [closeWindow_eq, State.onCounters, onLane_setLane_files, sendRunOut_setLane]
  rfl

/-! The statement. -/

/-- R93, R96: an AT GATE that names an item, from what becomes of that item. -/
theorem happens_gate {s w : State} {l : LaneId} {sq : Seq} {ahead rest : List Item} {i : Item} {v : Lane} (gates : s.gates l sq ahead i rest)
    (hv : v = (s.lane l).cut ahead rest)
    (head : ((s.setLane l v).files (s.windowFilings l .noConfirm ++ (s.missingRecords l ahead).map .item)).pairHead l i = w) :
    Happens (.atGate l sq) s (((w.levelNotice l (s.lane l).level).reevaluate l).feedTest l) := by
  obtain ⟨acts, queue, named, others⟩ := gates
  have lane := lane_setLane_same s l (s.lane l).heard
  have holds : ((s.setLane l (s.lane l).heard).lane l).holds sq = true := by
    rw [lane]
    exact List.any_eq_true.2 ⟨i, by rw [show (s.lane l).heard.queue = _ from queue]; simp, by simpa using named⟩
  have queue' : ((s.setLane l (s.lane l).heard).lane l).queue = ahead ++ i :: rest := by rwa [lane]
  have missing : (s.setLane l (s.lane l).heard).missingRecords l ahead = s.missingRecords l ahead :=
    missingRecords_setLane (v := (s.lane l).heard) rfl rfl [] ahead
  subst hv head
  refine happens_of_acts (r := .atGate sq) acts (congrArg (State.feedTest · l) ((gate_named holds).trans ?_))
  rw [pairGate_eq queue' named others, lane, setLane_setLane, windowFilings_heard, missing, ← cut_eq]
  rfl
theorem cut_fields (v : Lane) (ahead rest : List Item) : (v.cut ahead rest).mode = v.mode ∧ (v.cut ahead rest).config = v.config := by
  obtain ⟨mode, config, -⟩ := windowClosed_fields v .noConfirm
  exact ⟨mode, config⟩

/-- Settles O53: what becomes of the item named, case by case, then the PHANTOM. -/
theorem gatesPairItems : Obligations.GatesPairItems := by
  refine ⟨fun s w l sq ahead rest i d v gates hv unread level decision mode hw => ?diverted,
    fun s w l sq ahead rest i v gates hv unread level mode hw => ?dry, fun s w l sq ahead rest i v gates hv reading hw => ?late,
    fun s w l sq ahead rest i v gates hv unread level hw => ?faulted, fun s w l sq v acts queue fresh hv hw => ?phantom⟩
  case diverted =>
    have mode_v : v.mode ≠ .dry := by rwa [hv, (cut_fields _ _ _).1]
    subst hw
    refine happens_gate gates hv ((pairHead_diverted unread level decision mode_v s l _).trans ?_)
    rw [gates.2.2.1]
  case dry =>
    have mode_v : v.mode = .dry := by rwa [hv, (cut_fields _ _ _).1]
    subst hw
    refine happens_gate gates hv ((pairHead_dry unread level mode_v s l _).trans ?_)
    rw [gates.2.2.1]
  case late =>
    obtain ⟨mode_v, config_v⟩ := cut_fields (s.lane l) ahead rest
    rw [← hv] at mode_v config_v
    subst hw
    refine happens_gate gates hv ((pairHead_late reading s l _).trans ?_)
    rw [gates.2.2.1, runOutRecords_setLane mode_v config_v, List.map_append, List.append_assoc]
  case faulted =>
    obtain ⟨mode_v, config_v⟩ := cut_fields (s.lane l) ahead rest
    rw [← hv] at mode_v config_v
    subst hw
    refine happens_gate gates hv ((pairHead_faulted unread level s l _).trans ?_)
    rw [gates.2.2.1, runOutRecords_setLane mode_v config_v, List.map_append, List.append_assoc]
  case phantom =>
    have lane := lane_setLane_same s l (s.lane l).heard
    subst hv hw
    refine happens_of_acts (r := .atGate sq) acts (congrArg (State.feedTest · l) ((gate_phantom (by rwa [lane]) (by rwa [lane])).trans ?_))
    rw [phantom_eq, lane, setLane_setLane, windowFilings_heard, windowClosed_heard]

end Sys2Proof.Machine
end

section
/-! The commands of a lane (R65, R69, R75 to R80, R139, R171, R174, R179, R180): what each answers and leaves, case by case of its
checks. -/

namespace Sys2Proof.Machine

theorem exec_configureLane (tag : Byte) (body : Body ConfigureFields) (s : State) :
    exec (.configureLane tag body) s = s.command 0x18#8 tag body fun f s => s.runConfigureLane f := rfl
theorem exec_enableLane (tag : Byte) (body : Body Byte) (s : State) :
    exec (.enableLane tag body) s = s.command 0x19#8 tag body fun b s => s.runEnableLane b := rfl
theorem exec_disableLane (tag : Byte) (body : Body Byte) (s : State) :
    exec (.disableLane tag body) s = s.command 0x1A#8 tag body fun b s => s.runDisableLane b := rfl
theorem exec_readLane (tag : Byte) (body : Body Byte) (s : State) :
    exec (.readLane tag body) s = s.command 0x1B#8 tag body fun b s => s.runReadLane b := rfl
theorem exec_clearDiverterFault (tag : Byte) (body : Body Byte) (s : State) :
    exec (.clearDiverterFault tag body) s = s.command 0x1C#8 tag body fun b s => s.runClearDiverterFault b := rfl
theorem exec_setLaneMode (tag : Byte) (body : Body LaneModeFields) (s : State) :
    exec (.setLaneMode tag body) s = s.command 0x1D#8 tag body fun f s => s.runSetLaneMode f := rfl
theorem exec_injectError (tag : Byte) (body : Body Byte) (s : State) :
    exec (.injectError tag body) s = s.command 0x1E#8 tag body fun b s => s.runInjectError b := rfl
theorem exec_readTest (tag : Byte) (body : Body Byte) (s : State) :
    exec (.readTest tag body) s = s.command 0x1F#8 tag body fun b s => s.runReadTest b := rfl
theorem exec_readConsignment (tag : Byte) (body : Body Byte) (s : State) :
    exec (.readConsignment tag body) s = s.command 0x29#8 tag body fun b s => s.runReadConsignment b := rfl

theorem withLane_some {b : Byte} {l : LaneId} (h : b.toNat = l.val) (s : State) (act : LaneId → State × ReplyBody) :
    s.withLane b act = act l := by
  have inside : laneOf b = some l := by
    rw [laneOf, dif_pos (h ▸ l.isLt)]
    exact congrArg some (Fin.ext h)
  rw [State.withLane, inside]
/-- A lane command of a number above 7 is refused INVALID. -/
theorem refuses_outside {α : Type} {c : Instr} {s : State} {code tag b : Byte} {a : α} {run : α → State → State × ReplyBody}
    {act : State → LaneId → State × ReplyBody} (hc : exec c s = s.command code tag (.fields a) run)
    (block : ∀ t, run a t = t.withLane b (act t)) (hs : s.listens) (out : 8 ≤ b.toNat) :
    Refuses c s (replyCode code) tag .invalid .none :=
  takes_of_block hc hs ((block _).trans (withLane_none out _ _))

/-! READ LANE, READ CONSIGNMENT and READ TEST. -/

/-- Settles O15: the three blocks, each at its lane. -/
theorem laneReadsShowTheWholeStanding : Obligations.LaneReadsShowTheWholeStanding := by
  refine ⟨fun tag b l s hs lane => ⟨?_, ?_, ?_⟩, fun tag b s hs out => ⟨?_, ?_, ?_⟩⟩
  · exact takes_of_block (exec_readLane tag _ s) hs (withLane_some lane _ _)
  · refine takes_of_block (exec_readConsignment tag _ s) hs ((withLane_some lane _ _).trans ?_)
    have parcel : (s.onLink .countFrame).consignment l = s.consignment l := rfl
    rw [parcel]
    cases s.consignment l <;> rfl
  · exact takes_of_block (exec_readTest tag _ s) hs (withLane_some lane _ _)
  · exact refuses_outside (exec_readLane tag _ s) (fun _ => rfl) hs out
  · exact refuses_outside (exec_readConsignment tag _ s) (fun _ => rfl) hs out
  · exact refuses_outside (exec_readTest tag _ s) (fun _ => rfl) hs out

/-! CLEAR DIVERTER FAULT, SET LANE MODE and INJECT ERROR. -/

theorem laneNotice_eq (s : State) (l : LaneId) (c : NoticeCondition) (e : Edge) (d : Detail) :
    s.laneNotice l c e d = s.files [.lane l c e d] := rfl
theorem laneNotice_countFrame (s : State) (l : LaneId) (c : NoticeCondition) (e : Edge) (d : Detail) :
    (s.onLink .countFrame).laneNotice l c e d = (s.laneNotice l c e d).onLink .countFrame := files_countFrame s [.lane l c e d]
/-- R80: the count set to 0; a level that was set falls. -/
theorem clearFault_set {s : State} {l : LaneId} (h : (s.lane l).faultLevel = true) : s.clearFault l =
    (s.setLane l { s.lane l with faults := 0, faultLevel := false }).laneNotice l .diverterFault .falling .none := if_pos h
theorem clearFault_clear {s : State} {l : LaneId} (h : (s.lane l).faultLevel = false) : s.clearFault l =
    s.setLane l { s.lane l with faults := 0 } := by
  have same : { s.lane l with faults := 0, faultLevel := false } = { s.lane l with faults := 0 } := by rw [← h]
  rw [← same]
  exact if_neg (by simp [h])
theorem runClearDiverterFault_eq {s : State} {b : Byte} {l : LaneId} (h : b.toNat = l.val) : s.runClearDiverterFault b =
    (s.clearFault l, .done (.diverter (s.lane l).faultLevel (s.lane l).faults)) := withLane_some h _ _

/-- Settles O27: the lane numbers, then the three commands. -/
theorem laneSettingsCommands : Obligations.LaneSettingsCommands := by
  refine ⟨fun tag b s hs out => ⟨?_, fun m => ?_, ?_⟩, fun tag b l s hs lane level => ?set, fun tag b l s hs lane level => ?clear,
    fun tag f l s hs lane state => ?badState, fun tag f l s hs lane state => ?mode, fun tag b l s hs lane out => ?notTesting,
    fun tag b l s hs lane mode state => ?inject⟩
  · exact refuses_outside (exec_clearDiverterFault tag _ s) (fun _ => rfl) hs out
  · exact refuses_outside (exec_setLaneMode tag _ s) (fun _ => rfl) hs out
  · exact refuses_outside (exec_injectError tag _ s) (fun _ => rfl) hs out
  case set =>
    refine takes_of_block (exec_clearDiverterFault tag _ s) hs ((runClearDiverterFault_eq lane).trans (Prod.ext ?_ ?_))
    · exact (clearFault_set (s := s.onLink .countFrame) level).trans (laneNotice_countFrame (s.setLane l _) _ _ _ _)
    · exact congrArg (fun b => ReplyBody.done (.diverter b (s.lane l).faults)) level
  case clear =>
    refine takes_of_block (exec_clearDiverterFault tag _ s) hs ((runClearDiverterFault_eq lane).trans (Prod.ext ?_ ?_))
    · exact clearFault_clear (s := s.onLink .countFrame) level
    · exact congrArg (fun b => ReplyBody.done (.diverter b (s.lane l).faults)) level
  case badState => exact takes_of_block (exec_setLaneMode tag _ s) hs ((withLane_some lane _ _).trans (if_neg state))
  case mode => exact takes_of_block (exec_setLaneMode tag _ s) hs ((withLane_some lane _ _).trans (if_pos state))
  case notTesting =>
    refine takes_of_block (exec_injectError tag _ s) hs ((withLane_some lane _ _).trans (if_neg ?_))
    rintro ⟨test, silent | active⟩
    · exact out.elim (fun h => h test) fun h => h.1 silent
    · exact out.elim (fun h => h test) fun h => h.2 active
  case inject => exact takes_of_block (exec_injectError tag _ s) hs ((withLane_some lane _ _).trans (if_pos ⟨mode, state⟩))

/-! DISABLE LANE. -/

theorem runDisableLane_disabled {s : State} {b : Byte} {l : LaneId} (h : b.toNat = l.val) (state : (s.lane l).state = .disabled) :
    s.runDisableLane b = (s, .done (.disabled .disabled 0)) := (withLane_some h _ _).trans (if_pos state)
theorem runDisableLane_inService {s : State} {b : Byte} {l : LaneId} (h : b.toNat = l.val) (state : (s.lane l).state ≠ .disabled) :
    s.runDisableLane b = (s.disableLane l .disabled, .done (.disabled (s.lane l).state (s.lane l).itemCount)) :=
  (withLane_some h _ _).trans (if_neg state)
theorem itemCount_eq (v : Lane) : v.itemCount = v.queue.length + v.held.toList.length := by
  unfold Lane.itemCount
  cases v.held <;> rfl

theorem disableLane_countFrame (s : State) (l : LaneId) (r : Reason) :
    (s.onLink .countFrame).disableLane l r = (s.disableLane l r).onLink .countFrame := by
  have filings : (s.onLink .countFrame).disablingFilings l r = s.disablingFilings l r := rfl
  rw [disableLane_eq, disableLane_eq, filings, ← files_countFrame]
  rfl

/-- Settles O26: a lane number outside, a DISABLED lane, a lane in service. -/
theorem disableLaneFlushesAndCloses : Obligations.DisableLaneFlushesAndCloses := by
  refine ⟨fun tag b s hs out => refuses_outside (exec_disableLane tag _ s) (fun _ => rfl) hs out,
    fun tag b l s hs lane disabled => ?disabled, fun tag b l s hs lane inService => ?inService⟩
  case disabled => exact takes_of_block (exec_disableLane tag _ s) hs (runDisableLane_disabled lane disabled)
  case inService =>
    have effect := disableLane_eq s l .disabled
    unfold Lane.disabledAs Lane.swept Lane.emptied Lane.countFlushed at effect
    rw [← itemCount_eq, ← effect]
    refine takes_of_block (exec_disableLane tag _ s) hs ((runDisableLane_inService (s := s.onLink .countFrame) lane inService).trans ?_)
    rw [disableLane_countFrame]
    rfl

/-! ENABLE LANE. -/

/-- R65: the prerequisites that a lane's mode asks for and that are missing. -/
theorem missingFor_eq {s : State} {v : Lane} {configuration day base : Bool} (hc : configuration = true ↔ v.configured = false)
    (hd : day = true ↔ (v.mode = .normal ∨ v.mode = .dry) ∧ s.table.day = none)
    (hb : base = true ↔ v.mode = .normal ∧ s.decision.baseSet = false) : s.missingFor v = (configuration, day, base) := by
  have accounting : accounts v.mode = true ↔ v.mode = .normal ∨ v.mode = .dry := by
    cases v.mode <;> decide
  refine Prod.ext (Bool.eq_iff_iff.2 ?_) (Prod.ext (Bool.eq_iff_iff.2 ?_) (Bool.eq_iff_iff.2 ?_))
  · rw [hc, State.missingFor, Bool.not_eq_true']
  · rw [hd, State.missingFor, Bool.and_eq_true, accounting, Option.isNone_iff_eq_none]
  · rw [hb, State.missingFor, Bool.and_eq_true, decide_eq_true_iff, Bool.not_eq_true']
theorem runEnableLane_badState {s : State} {b : Byte} {l : LaneId} (h : b.toNat = l.val) (state : (s.lane l).state ≠ .disabled) :
    s.runEnableLane b = (s, .refused .badState .none) := (withLane_some h _ _).trans (if_pos state)
theorem runEnableLane_disabled {s : State} {b : Byte} {l : LaneId} {configuration day base : Bool} (h : b.toNat = l.val)
    (state : (s.lane l).state = .disabled) (missing : s.missingFor (s.lane l) = (configuration, day, base)) :
    s.runEnableLane b = if configuration || day || base then (s, .refused .notReady (.notReady configuration day base))
      else ((s.onLane l Lane.enable).laneNotice l .silent .rising .none, .done (.laneMode (s.lane l).mode)) := by
  refine (withLane_some h _ _).trans ?_
  dsimp only
  rw [missing, if_neg (not_not.2 state)]

/-- R65, R174: the lane in service. -/
theorem enable_eq (v : Lane) : v.enable = Lane.produce
    { v with
      state := .silent, sync := false, expected := none, cause := .none, violation := none
      silenceTimer := some v.config.silence, hold := true, rx := []
      test := if v.mode = .test ∨ v.mode = .echo then ⟨1#15, [], false, false, 0, 0, 0, 0, 0, 0, 0, 0⟩ else v.test } .hold := by
  have test : (if accounts v.mode = true then v.test else .reset) =
      if v.mode = .test ∨ v.mode = .echo then ⟨1#15, [], false, false, 0, 0, 0, 0, 0, 0, 0, 0⟩ else v.test := by
    cases v.mode <;> rfl
  rw [← test]
  rfl

/-- Settles O25: the checks in their order, then the lane in service. -/
theorem enableLaneEntersService : Obligations.EnableLaneEntersService := by
  refine ⟨fun tag b s hs out => refuses_outside (exec_enableLane tag _ s) (fun _ => rfl) hs out, fun tag b l s hs lane state => ?badState,
    fun tag b l s configuration day base hs lane state hc hd hb missing => ?missing,
    fun tag b l s hs lane state configured day base => ?enabled⟩
  case badState => exact takes_of_block (exec_enableLane tag _ s) hs (runEnableLane_badState lane state)
  case missing =>
    have found := missingFor_eq (s := s.onLink .countFrame) hc hd hb
    refine takes_of_block (exec_enableLane tag _ s) hs
      ((runEnableLane_disabled (s := s.onLink .countFrame) lane state found).trans (if_pos ?_))
    simpa [or_assoc] using missing
  case enabled =>
    have found : (s.onLink .countFrame).missingFor ((s.onLink .countFrame).lane l) = (false, false, false) :=
      missingFor_eq (by simp [configured]) (by simpa using day) (by simpa using base)
    rw [← enable_eq]
    refine takes_of_block (exec_enableLane tag _ s) hs
      ((runEnableLane_disabled (s := s.onLink .countFrame) lane state found).trans (Prod.ext ?_ rfl))
    exact laneNotice_countFrame (s.setLane l (s.lane l).enable) _ _ _ _

end Sys2Proof.Machine
end

section
/-! CONFIGURE LANE (R75 to R78, R193): what its fields are read as, its checks, and what it sets. -/

namespace Sys2Proof.Machine

/-! The outlet map. -/

theorem outletOf_of_le {b : Byte} (h : b.toNat ≤ 7) : ∃ x, outletOf b = some x ∧ outletByte x = b := by
  have lt : b.toNat < 8 := by omega
  refine ⟨⟨b.toNat, lt⟩, dif_pos lt, ?_⟩
  simp [outletByte]
theorem outletOf_of_gt {b : Byte} (h : 7 < b.toNat) : outletOf b = none := dif_neg (by omega)
theorem outletsOf_of_le (bs : List Byte) (h : ∀ b ∈ bs, b.toNat ≤ 7) :
    ∃ xs : List (Fin 8), bs.map outletOf = xs.map some ∧ xs.map outletByte = bs := by
  induction bs with
  | nil => exact ⟨[], rfl, rfl⟩
  | cons b bs ih =>
    obtain ⟨x, read, byte⟩ := outletOf_of_le (h b List.mem_cons_self)
    obtain ⟨xs, reads, bytes⟩ := ih fun c hc => h c (List.mem_cons_of_mem _ hc)
    exact ⟨x :: xs, by simp [read, reads], by simp [byte, bytes]⟩
/-- R193: ten outlets, none above 7, give the map that shows them. -/
theorem outletMapOf_of_le {bs : List Byte} (ten : bs.length = 10) (h : ∀ b ∈ bs, b.toNat ≤ 7) :
    ∃ m, outletMapOf bs = some m ∧ m.bytes = bs := by
  obtain ⟨xs, reads, bytes⟩ := outletsOf_of_le bs h
  have length : xs.length = 10 := by rw [← ten, ← bytes, List.length_map]
  match xs, length with
  | [preserve, reading, transfer, serials, return_, query0, query1, query2, query3, runout], _ =>
    refine ⟨⟨preserve, reading, transfer, serials, return_, query0, query1, query2, query3, runout⟩, ?_, bytes⟩
    rw [outletMapOf, reads]
    rfl
/-- R193: an outlet above 7 gives no map. -/
theorem outletMapOf_of_gt {bs : List Byte} {b : Byte} (mem : b ∈ bs) (h : 7 < b.toNat) : outletMapOf bs = none := by
  have bad : none ∈ bs.map outletOf := List.mem_map.2 ⟨b, mem, outletOf_of_gt h⟩
  unfold outletMapOf
  split
  · next whole => simp [whole] at bad
  · rfl

/-! The notice enables. -/

/-- R193: with no condition named twice, a pair gives its condition its set. -/
theorem enableSet_of_mem {ps : List EnablePair} (wf : enablePairsWf ps = true) {p : EnablePair} (mem : p ∈ ps) :
    enableSet ps p.condition = p.set := by
  have once : (ps.map (·.condition)).Nodup := by simpa [enablePairsWf] using wf
  have found : ps.find? (fun q => q.condition == p.condition) = some p := by
    cases h : ps.find? fun q => q.condition == p.condition with
    | none => simpa using List.find?_eq_none.1 h p mem
    | some q =>
      have same : q.condition = p.condition := by simpa using List.find?_some h
      exact congrArg some (List.inj_on_of_nodup_map once (List.mem_of_find?_eq_some h) mem same)
  rw [enableSet, found]
theorem enableSet_of_absent {ps : List EnablePair} {c : NoticeCondition} (h : ∀ p ∈ ps, p.condition ≠ c) : enableSet ps c = 0x00#8 := by
  have none : ps.find? (fun p => p.condition == c) = none := List.find?_eq_none.2 fun p mem => by simpa using h p mem
  rw [enableSet, none]
/-- R78, R193: a level condition takes its edges from bits 0 and 1 of its set. -/
theorem on_laneEnablesOf_level (ps : List EnablePair) {c : NoticeCondition}
    (h : c = .silent ∨ c = .stopped ∨ c = .diverterFault ∨ c = .held ∨ c = .testSync) :
    (laneEnablesOf ps).on c .rising = (enableSet ps c).getLsbD 0 ∧ (laneEnablesOf ps).on c .falling = (enableSet ps c).getLsbD 1 := by
  obtain rfl | rfl | rfl | rfl | rfl := h <;> exact ⟨rfl, rfl⟩
/-- R78, R193: an event is enabled by bit 0 of its set. -/
theorem on_laneEnablesOf_event (ps : List EnablePair) {c : NoticeCondition}
    (h : c = .levelChange ∨ c = .checkFail ∨ c = .slipSeen ∨ c = .phantom) (edge : Edge) :
    (laneEnablesOf ps).on c edge = (enableSet ps c).getLsbD 0 := by
  obtain rfl | rfl | rfl | rfl := h <;> rfl
theorem on_laneEnablesOf_absent {ps : List EnablePair} {c : NoticeCondition} (h : enableSet ps c = 0x00#8) (edge : Edge) :
    (laneEnablesOf ps).on c edge = false := by
  have level : LevelEnable.on (levelEnable 0x00#8) edge = false := by cases edge <;> rfl
  cases c with
  | silent | stopped | diverterFault | held | testSync => exact (congrArg (fun b => LevelEnable.on (levelEnable b) edge) h).trans level
  | levelChange | checkFail | slipSeen | phantom => exact congrArg eventEnable h
  | claimListFull | reportSpaceLow | tableFull | accessionExhausted | started => rfl

/-! The checks. -/

theorem given_iff (f : ConfigureFields) : ConfigureFields.given f = true ↔
    f.depth ≠ none ∨ f.outlets ≠ none ∨ f.slip ≠ none ∨ f.silence ≠ none ∨ f.confirm ≠ none ∨ f.enables ≠ none := by
  simp only [ConfigureFields.given, Bool.or_eq_true, Option.isSome_iff_ne_none, or_assoc]
theorem enablesOnly_iff (f : ConfigureFields) : ConfigureFields.enablesOnly f = true ↔
    (f.depth = none ∧ f.outlets = none ∧ f.slip = none ∧ f.silence = none ∧ f.confirm = none) ∧ f.enables ≠ none := by
  simp only [ConfigureFields.enablesOnly, Bool.and_eq_true, Option.isNone_iff_eq_none, Option.isSome_iff_ne_none, and_assoc]
/-- R75, R193: the map and the enables are read when no outlet is above 7 and every condition is a lane's. -/
theorem inRange_of {f : ConfigureFields} (wf : f.wf = true) (outlets : ∀ o, f.outlets = some o → ∀ x ∈ o, x.toNat ≤ 7)
    (enables : ∀ ps, f.enables = some ps → ∀ p ∈ ps, laneCondition p.condition = true) : ConfigureFields.inRange f = true := by
  obtain ⟨ten, -⟩ := Bool.and_eq_true_iff.1 wf
  refine Bool.and_eq_true_iff.2 ⟨?_, ?_⟩
  · cases given : f.outlets with
    | none => rfl
    | some o =>
      rw [given] at ten
      obtain ⟨m, reads, -⟩ := outletMapOf_of_le (of_decide_eq_true ten) (outlets o given)
      exact Option.isSome_iff_exists.2 ⟨m, reads⟩
  · cases given : f.enables with
    | none => rfl
    | some ps => exact List.all_eq_true.2 (enables ps given)
theorem inRange_eq_false {f : ConfigureFields} (h : (∃ o, f.outlets = some o ∧ ∃ x ∈ o, 7 < x.toNat) ∨
    ∃ ps, f.enables = some ps ∧ ∃ p ∈ ps, laneCondition p.condition = false) : ConfigureFields.inRange f = false := by
  refine Bool.and_eq_false_iff.2 ?_
  obtain ⟨o, given, x, mem, above⟩ | ⟨ps, given, p, mem, device⟩ := h
  · rw [given]
    exact .inl (congrArg Option.isSome (outletMapOf_of_gt mem above))
  · rw [given]
    exact .inr (List.all_eq_false.2 ⟨p, mem, by simp [device]⟩)

/-- R77: the checks of CONFIGURE LANE, in their order. -/
theorem runConfigureLane_invalid {s : State} {f : ConfigureFields} {l : LaneId} (h : f.lane.toNat = l.val)
    (bad : ConfigureFields.given f = false ∨ ConfigureFields.inRange f = false) : s.runConfigureLane f = (s, .refused .invalid .none) := by
  refine (withLane_some h _ _).trans (if_pos ?_)
  obtain bad | bad := bad <;> simp [bad]
theorem runConfigureLane_valid {s : State} {f : ConfigureFields} {l : LaneId} (h : f.lane.toNat = l.val)
    (given : ConfigureFields.given f = true) (inRange : ConfigureFields.inRange f = true) : s.runConfigureLane f =
      if (s.lane l).state ≠ .disabled ∧ ConfigureFields.enablesOnly f = false then (s, .refused .badState .none)
      else (s.setLane l { s.lane l with
          config := (s.lane l).config.apply f
          configured := (s.lane l).configured || decide ((s.lane l).state = .disabled) },
        .done (.laneConfig ((s.lane l).config.apply f))) :=
  (withLane_some h _ _).trans (if_neg (by simp [given, inRange]))

/-! What is set. -/

/-- R75, R77: the notice enables after CONFIGURE LANE. -/
theorem enables_apply {c : LaneConfig} {f : ConfigureFields} {ps : List EnablePair} (wf : f.wf = true) (given : f.enables = some ps) :
    (∀ p ∈ ps, p.condition = .silent ∨ p.condition = .stopped ∨ p.condition = .diverterFault ∨ p.condition = .held ∨
        p.condition = .testSync →
      (c.apply f).enables.on p.condition .rising = p.set.getLsbD 0 ∧ (c.apply f).enables.on p.condition .falling = p.set.getLsbD 1) ∧
    (∀ p ∈ ps, p.condition = .levelChange ∨ p.condition = .checkFail ∨ p.condition = .slipSeen ∨ p.condition = .phantom →
      (c.apply f).enables.on p.condition .event = p.set.getLsbD 0) ∧
    ∀ (x : NoticeCondition) (edge : Edge), (∀ p ∈ ps, p.condition ≠ x) → (c.apply f).enables.on x edge = false := by
  have set : (c.apply f).enables = laneEnablesOf ps := by simp [LaneConfig.apply, given]
  have once : enablePairsWf ps = true := by simpa [given] using (Bool.and_eq_true_iff.1 wf).2
  rw [set]
  refine ⟨fun p mem level => ?_, fun p mem event => ?_, fun x edge absent => ?_⟩
  · rw [← enableSet_of_mem once mem]
    exact on_laneEnablesOf_level ps level
  · rw [← enableSet_of_mem once mem]
    exact on_laneEnablesOf_event ps event .event
  · exact on_laneEnablesOf_absent (enableSet_of_absent absent) edge
theorem outlets_apply {c : LaneConfig} {f : ConfigureFields} {o : List Byte} (wf : f.wf = true) (given : f.outlets = some o)
    (within : ∀ x ∈ o, x.toNat ≤ 7) : (c.apply f).outlets.bytes = o := by
  have ten : o.length = 10 := by simpa [given] using (Bool.and_eq_true_iff.1 wf).1
  obtain ⟨m, reads, bytes⟩ := outletMapOf_of_le ten within
  have set : (c.apply f).outlets = m := by simp [LaneConfig.apply, given, reads]
  rw [set, bytes]

/-- Settles O24: the checks in their order, then the fields. -/
theorem configureLaneSetsTheFieldsGiven : Obligations.ConfigureLaneSetsTheFieldsGiven := by
  refine ⟨fun tag f s hs out => refuses_outside (exec_configureLane tag _ s) (fun _ => rfl) hs out,
    fun tag f l s hs lane none => ?nothing, fun tag f l s hs lane bad => ?outOfRange,
    fun tag f l s hs lane wf outlets enables given state => ?badState,
    fun tag f l s hs lane wf outlets enables given state => ?set⟩
  case nothing =>
    obtain ⟨depth, outlets, slip, silence, confirm, enables⟩ := none
    have bare : ConfigureFields.given f = false := by
      simp [ConfigureFields.given, depth, outlets, slip, silence, confirm, enables]
    exact takes_of_block (exec_configureLane tag _ s) hs (runConfigureLane_invalid lane (.inl bare))
  case outOfRange =>
    exact takes_of_block (exec_configureLane tag _ s) hs (runConfigureLane_invalid lane (.inr (inRange_eq_false bad)))
  case badState =>
    have given' : ConfigureFields.given f = true := (given_iff f).2 (by tauto)
    have others : ConfigureFields.enablesOnly f = false :=
      Bool.eq_false_iff.2 fun only => by have := ((enablesOnly_iff f).1 only).1; tauto
    exact takes_of_block (exec_configureLane tag _ s) hs
      ((runConfigureLane_valid lane given' (inRange_of wf outlets enables)).trans (if_pos ⟨state, others⟩))
  case set =>
    have taken : ¬ ((s.lane l).state ≠ .disabled ∧ ConfigureFields.enablesOnly f = false) := by
      rintro ⟨inService, others⟩
      have only : ConfigureFields.enablesOnly f = true := (enablesOnly_iff f).2 (by tauto)
      simp [only] at others
    have configured : ((s.lane l).configured || decide ((s.lane l).state = .disabled)) =
        if (s.lane l).state = .disabled then true else (s.lane l).configured := by
      split <;> simp [*]
    rw [← configured]
    refine ⟨(s.lane l).config.apply f, takes_of_block (exec_configureLane tag _ s) hs
      ((runConfigureLane_valid (s := s.onLink .countFrame) lane ((given_iff f).2 given) (inRange_of wf outlets enables)).trans
        (if_neg taken)), ?_, fun none => ?_, fun o given => outlets_apply wf given (outlets o given), ?_, ?_, ?_, fun none => ?_,
      fun ps given => enables_apply wf given⟩
    · cases h : f.depth <;> simp [LaneConfig.apply, h, depthOf]
    · simp [LaneConfig.apply, none]
    · cases h : f.slip <;> simp [LaneConfig.apply, h]
    · cases h : f.silence <;> simp [LaneConfig.apply, h, clamp]
    · cases h : f.confirm <;> simp [LaneConfig.apply, h, clamp]
    · simp [LaneConfig.apply, none]

end Sys2Proof.Machine
end

section
/-! The report unit's records, the outbound line and CLEAR (R63, R82, R184 to R189, R192). -/

namespace Sys2Proof.Machine

/-! Records filled and notices asked. -/

/-- R186: a record filled behind the others, and the send point on it. -/
def ReportUnit.sendWith (r : ReportUnit) (x : ReportRecord) : ReportUnit :=
  { r with filled := r.filled ++ [x], sendPoint := some r.filled.length, holdTimer := none }
theorem sendAll_append (r : ReportUnit) (x : ReportRecord) :
    ({ r with filled := r.filled ++ [x] } : ReportUnit).sendAll = r.sendWith x := by
  have length : (r.filled ++ [x]).length = r.filled.length + 1 := by simp
  rw [ReportUnit.sendAll, length]
  rfl
/-- R189: a notice asked while a non-item slot is free. -/
theorem ask_of_room {s : State} (h : s.report.usedNonItem < 16) (a : Source) (c : NoticeCondition) (e : Edge) (d : Detail) :
    s.ask a c e d = { s with report := s.report.sendWith (.notice ⟨a, c, e, s.table.day, d⟩) } := by
  have room : s.report.nonItemRoom = true := decide_eq_true h
  rw [State.ask, if_pos room, State.onReport, sendAll_append]
/-- R189: a notice asked with no non-item slot free is dropped. -/
theorem ask_of_full {s : State} (h : 16 ≤ s.report.usedNonItem) (a : Source) (c : NoticeCondition) (e : Edge) (d : Detail) :
    s.ask a c e d = s.onLink fun k => { k with noticesDropped := bump k.noticesDropped } := by
  have full : ¬ s.report.nonItemRoom = true := by
    rw [ReportUnit.nonItemRoom, decide_eq_true_iff, Config.nonItemSlots]
    omega
  rw [State.ask, if_neg full]
/-- R189: STARTED has no enable. -/
theorem deviceNotice_eq (s : State) (c : NoticeCondition) (e : Edge) (d : Detail) : s.deviceNotice c e d =
    if c = .started ∨ s.report.enables.on c e = true then s.ask .device c e d else s := by
  have on : (c = .started ∨ s.report.enables.on c e = true) ↔ s.report.enables.on c e = true :=
    or_iff_right_of_imp fun started => started ▸ rfl
  simp only [State.deviceNotice, on]
/-- R186: what makes a record filled due at once. -/
theorem fill_eq (r : ReportUnit) (x : ReportRecord) : r.fill x =
    if 3 ≤ r.filled.length ∨ ({ r with filled := r.filled ++ [x] } : ReportUnit).unreserved < 32 ∨ r.holdTime = 0 then r.sendWith x
    else { r with filled := r.filled ++ [x], holdTimer := some (r.holdTimer.getD r.holdTime) } := by
  have four : Config.dueFill ≤ (r.filled ++ [x]).length ↔ 3 ≤ r.filled.length := by simp [Config.dueFill]
  simp only [ReportUnit.fill, four, sendAll_append, Config.lowSpace]

/-- Settles O9: the notices, then the records filled. -/
theorem reportRecordsAreFilled : Obligations.ReportRecordsAreFilled := by
  refine ⟨fun _ _ _ _ _ => rfl, deviceNotice_eq, fun s a c e d room => ask_of_room room a c e d,
    fun s a c e d full => ask_of_full full a c e d, fun r x due => (fill_eq r x).trans (if_pos due), fun r x few space held => ?waits⟩
  case waits =>
    have waits : ¬ (3 ≤ r.filled.length ∨ ({ r with filled := r.filled ++ [x] } : ReportUnit).unreserved < 32 ∨ r.holdTime = 0) := by
      omega
    rw [fill_eq, if_neg waits]
    cases r.holdTimer <;> rfl

/-! The batch. -/

/-- R187: a batch takes the records from the front, as many as fit and no more than n. -/
theorem fitting_spec (n room : Nat) (rs : List ReportRecord) : ∃ k, fitting n room rs = rs.take k ∧ k ≤ n ∧ k ≤ rs.length ∧
    ((rs.take k).flatMap ReportRecord.bytes).length ≤ room ∧
    (k < n → k < rs.length → room < ((rs.take (k + 1)).flatMap ReportRecord.bytes).length) := by
  induction n generalizing room rs with
  | zero => exact ⟨0, by simp [fitting]⟩
  | succ n ih =>
    cases rs with
    | nil => exact ⟨0, by simp [fitting]⟩
    | cons r rs =>
      by_cases fits : r.bytes.length ≤ room
      · obtain ⟨k, takes, le_n, le_length, within, next⟩ := ih (room - r.bytes.length) rs
        refine ⟨k + 1, by simp [fitting, fits, takes], by omega, by simpa using le_length, ?_, fun lt_n lt_length => ?_⟩
        · simp only [List.take_succ_cons, List.flatMap_cons, List.length_append]
          omega
        · have := next (by omega) (by simpa using lt_length)
          rw [List.take_succ_cons, List.flatMap_cons, List.length_append]
          omega
      · exact ⟨0, by simp [fitting, fits], by omega, by omega, by simp, fun _ _ => by simp; omega⟩
theorem batchBody_length (rs : List ReportRecord) : (batchBody rs).length = 2 + (rs.flatMap ReportRecord.bytes).length := by
  simp [batchBody, num16, be16]
  omega
/-- R187: the batch that is ready. -/
theorem batch_spec (r : ReportUnit) : ∃ n, r.batch = r.filled.take n ∧ n ≤ 16 ∧ n ≤ r.due ∧ n ≤ r.filled.length ∧
    (batchBody (r.filled.take n)).length ≤ 1024 ∧
    (n < 16 → n < r.due → n < r.filled.length → 1024 < (batchBody (r.filled.take (n + 1))).length) := by
  obtain ⟨n, takes, le, le_length, within, next⟩ := fitting_spec (min Config.maxBatch r.due) (Config.maxBody - 2) r.filled
  simp only [Config.maxBatch, Config.maxBody, le_min_iff, lt_min_iff, and_imp] at le within next
  refine ⟨n, takes, le.1, le.2, le_length, by rw [batchBody_length]; omega, fun few due more => ?_⟩
  have := next few due more
  rw [batchBody_length]
  omega

/-! The line. -/

theorem grant_reply {s : State} {r : Reply} {rest : List Reply} (free : s.host.line = .idle) (waiting : s.host.replies = r :: rest) :
    s.grant = { s with host := { s.host with line := .reply r, replies := rest } } := by
  rw [State.grant, free, waiting]
/-- R184, R188: with no reply waiting the line goes to the batch that is ready, if one is. -/
theorem grant_noReply {s : State} (free : s.host.line = .idle) (none : s.host.replies = []) : s.grant =
    if s.report.reportsHeld = false ∧ s.report.due ≠ 0 then
      { s with host := { s.host with line := .batch s.report.batchNumber s.report.batch s.report.batch.length } }
    else s := by
  rw [State.grant, free, none]
  simp only [Bool.and_eq_true, Bool.not_eq_true', bne_iff_ne]

/-! The ends of transmissions. -/

theorem execReplySent_reply {s : State} {r : Reply} (h : s.host.line = .reply r) : exec .replySent s =
    State.done { s with host := { s.host with
      line := .idle, counters := { s.host.counters with repliesSent := bump s.host.counters.repliesSent } } } := by
  rw [exec, execReplySent, h]
theorem execReplySent_none {s : State} (h : ∀ r, s.host.line ≠ .reply r) : exec .replySent s = s.done := by
  rw [exec, execReplySent]
  split
  · next r line => exact absurd line (h r)
  · rfl
  · rfl
theorem execBatchSent_none {s : State} (h : ∀ tag rs n, s.host.line ≠ .batch tag rs n) : exec .batchSent s = s.done := by
  rw [exec, execBatchSent]
  split
  · next tag rs n line => exact absurd line (h tag rs n)
  · rfl
  · rfl
/-- R187: the records of a batch sent leave, and the report space is settled again. -/
theorem execBatchSent_batch {s : State} {tag : Byte} {rs : List ReportRecord} {n : Nat} (h : s.host.line = .batch tag rs n) :
    exec .batchSent s = (State.settleReport
      { s with
        host := { s.host with
          line := .idle
          counters := { s.host.counters with
            batchesSent := bump s.host.counters.batchesSent
            recordsSent := satAdd s.host.counters.recordsSent rs.length } }
        report := s.report.leave n }).done := by
  rw [exec, execBatchSent, h]
  rfl
theorem execLaneRecordSent_eq (s : State) (l : LaneId) : exec (.laneRecordSent l) s = (s.setLane l (s.lane l).sent).done := rfl

/-- Settles O7: the line, then the ends of a reply, of a batch and of a lane record. -/
theorem transmissionsEnd : Obligations.TransmissionsEnd := by
  refine ⟨fun s => grant_busy, fun s r rest => grant_reply, fun s free none idle => ?stays, fun s free none ready due => ?batch,
    fun s r line => happens_of_done (execReplySent_reply line), fun s none => happens_of_done (execReplySent_none none),
    fun s tag rs n line => happens_of_done (execBatchSent_batch line), fun s none => happens_of_done (execBatchSent_none none),
    fun s l none => ?unsent, fun s l r sending outbox => ?last, fun s l r x rest sending outbox => ?next⟩
  case stays =>
    refine (grant_noReply free none).trans (if_neg ?_)
    rintro ⟨ready, due⟩
    obtain held | zero := idle
    · simp [ready] at held
    · exact due zero
  case batch =>
    obtain ⟨n, takes, le, le_due, le_length, within, next⟩ := batch_spec s.report
    refine ⟨n, le, le_due, le_length, within, next, ?_⟩
    rw [grant_noReply free none, if_pos ⟨ready, due⟩, takes, List.length_take, Nat.min_eq_left le_length]
  case unsent =>
    have same : (s.lane l).sent = s.lane l := by rw [Lane.sent, none]
    refine happens_of_done ((execLaneRecordSent_eq s l).trans ?_)
    rw [same, setLane_self]
  case last =>
    have sent : (s.lane l).sent = { s.lane l with sending := none } := by simp only [Lane.sent, sending, outbox]
    exact happens_of_done ((execLaneRecordSent_eq s l).trans (by rw [sent]))
  case next =>
    have sent : (s.lane l).sent = { s.lane l with sending := some x, outbox := rest } := by rw [Lane.sent, sending, outbox]
    exact happens_of_done ((execLaneRecordSent_eq s l).trans (by rw [sent]))

/-! CLEAR. -/

theorem exec_clear (tag : Byte) (body : Body Unit) (s : State) : exec (.clear tag body) s =
    s.command 0x09#8 tag body fun _ s => (s.cleared.ask .device .started .event (.started .clear), .done .empty) := rfl

/-- Settles O12: the blocks at their power-on values, and the one notice. -/
theorem clearKeepsOnlyTheHostLink : Obligations.ClearKeepsOnlyTheHostLink := by
  intro tag s hs
  have asked := ask_of_room (s := (s.onLink .countFrame).cleared) (show ReportUnit.reset.usedNonItem < 16 by decide) .device .started .event (.started .clear)
  exact takes_of_block (exec_clear tag _ s) hs (Prod.ext (asked.trans rfl) rfl)

end Sys2Proof.Machine
end

section
/-! The two receivers: what they take from a run of bytes, and the station records read back from their bytes (R60, R61, R181, R193). -/

namespace Sys2Proof.Machine

/-! The framer of the host link. -/

/-- The framer looks at no more bytes than there are. -/
theorem scanHost_fuel {n m : Nat} {buf : List Byte} (hn : buf.length ≤ n) (hm : buf.length ≤ m) : scanHost n buf = scanHost m buf := by
  induction n generalizing m buf with
  | zero =>
    obtain rfl : buf = [] := List.length_eq_zero_iff.mp (by omega)
    cases m <;> rfl
  | succ n ih =>
    cases m with
    | zero =>
      obtain rfl : buf = [] := List.length_eq_zero_iff.mp (by omega)
      rfl
    | succ m =>
      cases buf with
      | nil => rfl
      | cons b t =>
        simp only [List.length_cons, Nat.add_le_add_iff_right] at hn hm
        have tail : scanHost n t = scanHost m t := ih hn hm
        cases t with
        | nil => simp only [scanHost, tail]
        | cons c rest =>
          simp only [List.length_cons] at hn hm
          have behind (k : Nat) : scanHost n (rest.drop k) = scanHost m (rest.drop k) :=
            ih (by rw [List.length_drop]; omega) (by rw [List.length_drop]; omega)
          simp only [scanHost, tail, behind]
/-- R181: what the framer does at a marker that has its length behind it. -/
theorem scanHost_marker (n : Nat) (hi lo : Byte) (after : List Byte) :
    scanHost (n + 1) (0xA5#8 :: 0x5A#8 :: hi :: lo :: after) =
      if 1024 < (hi ++ lo).toNat then
        (.lengthError :: (scanHost n (0x5A#8 :: hi :: lo :: after)).1, (scanHost n (0x5A#8 :: hi :: lo :: after)).2)
      else if after.length < (hi ++ lo).toNat + 4 then ([], 0xA5#8 :: 0x5A#8 :: hi :: lo :: after)
      else if (after.drop ((hi ++ lo).toNat + 2)).take 2 = be16 (crc (hi :: lo :: after.take ((hi ++ lo).toNat + 2))) then
        (.complete (after.headD 0x00#8) ((after.drop 1).headD 0x00#8) ((after.take ((hi ++ lo).toNat + 2)).drop 2) ::
          (scanHost n (after.drop ((hi ++ lo).toNat + 4))).1, (scanHost n (after.drop ((hi ++ lo).toNat + 4))).2)
      else (.crcError :: (scanHost n (0x5A#8 :: hi :: lo :: after)).1, (scanHost n (0x5A#8 :: hi :: lo :: after)).2) := by
  have head : ((after.take ((hi ++ lo).toNat + 2))).headD 0x00#8 = after.headD 0x00#8 := by cases after <;> rfl
  have second : ((after.take ((hi ++ lo).toNat + 2)).drop 1).headD 0x00#8 = (after.drop 1).headD 0x00#8 := by
    rcases after with _ | ⟨a, _ | ⟨b, t⟩⟩ <;> rfl
  rw [← head, ← second]
  rfl
/-- The framer passes over a byte that no marker begins at. -/
theorem scanHost_passes {b : Byte} {rest : List Byte} (h : b ≠ 0xA5#8 ∨ ∃ x t, rest = x :: t ∧ x ≠ 0x5A#8) (n : Nat) :
    scanHost (n + 1) (b :: rest) = scanHost n rest := by
  obtain other | ⟨x, t, rfl, other⟩ := h
  · simp only [scanHost, if_pos other]
  · simp only [scanHost, if_pos other, ite_self]
theorem be16_eq (x : Half) : ∃ hi lo : Byte, be16 x = [hi, lo] ∧ hi ++ lo = x :=
  ⟨_, _, rfl, by ext i hi; simp; grind⟩
theorem be16_append (hi lo : Byte) : be16 (hi ++ lo) = [hi, lo] := by
  rw [be16, BitVec.extractLsb'_append_eq_left, BitVec.extractLsb'_append_eq_right]
/-- R181: a frame is its marker, its length, what the length and the CRC enclose, and the CRC. -/
theorem hostFrame_eq {code tag : Byte} {body : List Byte} (h : body.length ≤ 1024) : ∃ hi lo : Byte,
    (hi ++ lo).toNat = body.length ∧
    hostFrame code tag body = 0xA5#8 :: 0x5A#8 :: hi :: lo :: (code :: tag :: body ++ be16 (crc (hi :: lo :: code :: tag :: body))) := by
  obtain ⟨hi, lo, bytes, value⟩ := be16_eq (BitVec.ofNat 16 body.length)
  refine ⟨hi, lo, ?_, ?_⟩
  · rw [value, BitVec.toNat_ofNat]
    omega
  · rw [hostFrame, num16, bytes]
    rfl
/-- R181: the framer at a frame whose length is right. -/
theorem scanHost_enclosed {hi lo : Byte} {covered sum rest : List Byte} (fits : (hi ++ lo).toNat ≤ 1024)
    (length : covered.length = (hi ++ lo).toNat + 2) (two : sum.length = 2) (n : Nat) :
    scanHost (n + 1) (0xA5#8 :: 0x5A#8 :: hi :: lo :: (covered ++ sum ++ rest)) =
      if sum = be16 (crc (hi :: lo :: covered)) then
        (.complete (covered.headD 0x00#8) ((covered.drop 1).headD 0x00#8) (covered.drop 2) :: (scanHost n rest).1, (scanHost n rest).2)
      else
        (.crcError :: (scanHost n (0x5A#8 :: hi :: lo :: (covered ++ sum ++ rest))).1,
          (scanHost n (0x5A#8 :: hi :: lo :: (covered ++ sum ++ rest))).2) := by
  have whole : ¬ (covered ++ sum ++ rest).length < (hi ++ lo).toNat + 4 := by
    simp only [List.length_append]
    omega
  have taken : (covered ++ sum ++ rest).take ((hi ++ lo).toNat + 2) = covered := by
    rw [← length, List.append_assoc, List.take_left]
  have summed : ((covered ++ sum ++ rest).drop ((hi ++ lo).toNat + 2)).take 2 = sum := by
    rw [← length, List.append_assoc, List.drop_left, ← two, List.take_left]
  have behind : (covered ++ sum ++ rest).drop ((hi ++ lo).toNat + 4) = rest := by
    rw [show (hi ++ lo).toNat + 4 = (covered ++ sum).length by simp only [List.length_append]; omega, List.drop_left]
  obtain ⟨code, tag, body, rfl⟩ : ∃ code tag body, covered = code :: tag :: body := by
    match covered, length with
    | code :: tag :: body, _ => exact ⟨code, tag, body, rfl⟩
  rw [scanHost_marker, if_neg (by omega), if_neg whole, taken, summed, behind]
  rfl
theorem scanHost_frame {body : List Byte} (code tag : Byte) (h : body.length ≤ 1024) (rest : List Byte) :
    scanHost (hostFrame code tag body ++ rest).length (hostFrame code tag body ++ rest) =
      (.complete code tag body :: (scanHost rest.length rest).1, (scanHost rest.length rest).2) := by
  obtain ⟨hi, lo, value, frame⟩ := hostFrame_eq (code := code) (tag := tag) h
  have enclosed := scanHost_enclosed (hi := hi) (lo := lo) (covered := code :: tag :: body)
    (sum := be16 (crc (hi :: lo :: code :: tag :: body))) (rest := rest) (by omega) (by simp [value]) rfl
    (body.length + rest.length + 7)
  rw [if_pos rfl, scanHost_fuel (m := rest.length) (by omega) le_rfl] at enclosed
  rw [frame]
  refine Eq.trans ?_ enclosed
  refine scanHost_fuel le_rfl ?_
  simp [be16]
  omega
/-- R181: what the framer keeps for later. -/
theorem scanHost_partial {buf : List Byte}
    (h : buf = [] ∨ buf = [0xA5#8] ∨ buf = [0xA5#8, 0x5A#8] ∨ (∃ hi, buf = [0xA5#8, 0x5A#8, hi]) ∨
      (∃ hi lo rest, buf = 0xA5#8 :: 0x5A#8 :: hi :: lo :: rest ∧ (hi ++ lo).toNat ≤ 1024 ∧ rest.length < (hi ++ lo).toNat + 4)) :
    scanHost buf.length buf = ([], buf) := by
  obtain rfl | rfl | rfl | ⟨hi, rfl⟩ | ⟨hi, lo, rest, rfl, fits, short⟩ := h
  · rfl
  · rfl
  · rfl
  · rfl
  · rw [List.length_cons, scanHost_marker, if_neg (by omega), if_pos short]

/-! Readers and what they read. -/

/-- p reads back what f writes, for the values that ok allows; and what p reads is written by f. -/
structure ReadsBack {α : Type} (p : Reader α) (f : α → List Byte) (ok : α → Prop) : Prop where
  back : ∀ {a : α}, ok a → ∀ r, p (f a ++ r) = some (a, r)
  spelled : ∀ {r : List Byte} {a : α} {r' : List Byte}, p r = some (a, r') → r = f a ++ r'

theorem ReadsBack.back_nil {α : Type} {p : Reader α} {f : α → List Byte} {ok : α → Prop} (h : ReadsBack p f ok) {a : α} (good : ok a) :
    p (f a) = some (a, []) := by simpa using h.back good []
theorem read8_readsBack : ReadsBack read8 (fun b => [b]) fun _ => True where
  back _ _ := rfl
  spelled {r a r'} h := by
    cases r with
    | nil => simp [read8] at h
    | cons b t =>
      obtain ⟨rfl, rfl⟩ : b = a ∧ t = r' := by simpa [read8] using h
      rfl
theorem read16_readsBack : ReadsBack read16 be16 fun _ => True where
  back {x} _ r := by
    obtain ⟨hi, lo, bytes, rfl⟩ := be16_eq x
    rw [bytes]
    rfl
  spelled {r x r'} h := by
    match r, h with
    | hi :: lo :: t, h =>
      obtain ⟨rfl, rfl⟩ : hi ++ lo = x ∧ t = r' := by simpa [read16] using h
      rw [be16_append]
      rfl
theorem read24_readsBack : ReadsBack read24 be24 fun _ => True where
  back {x} _ r := by
    have value : x.extractLsb' 16 8 ++ x.extractLsb' 8 8 ++ x.extractLsb' 0 8 = x := by
      ext i hi
      simp
      grind
    exact congrArg (fun y => some (y, r)) value
  spelled {r x r'} h := by
    match r, h with
    | a :: b :: c :: t, h =>
      obtain ⟨rfl, rfl⟩ : a ++ b ++ c = x ∧ t = r' := by simpa [read24] using h
      have bytes : be24 (a ++ b ++ c) = [a, b, c] := by
        simp only [be24, List.cons.injEq, and_true]
        refine ⟨?_, ?_, ?_⟩ <;> ext i hi <;> simp <;> grind
      rw [bytes]
      rfl
/-- A code table whose codes find their values reads them back. -/
theorem readCode_readsBack {α : Type} {all : List α} {code : α → Byte} (h : ∀ a, ofCode all code (code a) = some a) :
    ReadsBack (readCode all code) (fun a => [code a]) fun _ => True where
  back {a} _ r := by simp [readCode, read8, h]
  spelled {r a r'} got := by
    simp only [readCode, Option.bind_eq_bind, Option.bind_eq_some_iff, Option.pure_def, Option.some.injEq, Prod.mk.injEq,
      Prod.exists] at got
    obtain ⟨b, t, byte, a, found, rfl, rfl⟩ := got
    have same : code a = b := by simpa using List.find?_some found
    rw [same]
    exact read8_readsBack.spelled byte

theorem readOpt_readsBack {α : Type} {p : Reader α} {f : α → List Byte} {ok : α → Prop} (h : ReadsBack p f ok) :
    ReadsBack (readOpt p) (optBytes f) fun o => ∀ a ∈ o, ok a where
  back {o} good r := by
    cases o with
    | none => rfl
    | some a =>
      have got := h.back (good a rfl) r
      simp [readOpt, optBytes, read8, got]
  spelled {r o r'} got := by
    simp only [readOpt, Option.bind_eq_bind, Option.bind_eq_some_iff, Prod.exists] at got
    obtain ⟨b, t, byte, got⟩ := got
    rw [read8_readsBack.spelled byte]
    split at got
    · next zero =>
      obtain ⟨rfl, rfl⟩ : none = o ∧ t = r' := by simpa using got
      rw [zero]
      rfl
    · split at got
      · next one =>
        simp only [Option.bind_eq_some_iff, Option.pure_def, Option.some.injEq, Prod.mk.injEq, Prod.exists] at got
        obtain ⟨a, u, value, rfl, rfl⟩ := got
        rw [one, h.spelled value]
        rfl
      · simp at got
theorem readKey_readsBack : ReadsBack readKey KeyText.bytes fun k => k.text.length ≤ 16 where
  back {k} short r := by
    have value : (BitVec.ofNat 8 k.text.length).toNat = k.text.length := by
      rw [BitVec.toNat_ofNat]
      omega
    simp [readKey, KeyText.bytes, num8, read8, readBytes, value, not_lt.mpr short]
  spelled {r k r'} got := by
    simp only [readKey, Option.bind_eq_bind, Option.bind_eq_some_iff, Prod.exists] at got
    obtain ⟨scheme, t, first, n, u, second, got⟩ := got
    split at got
    · simp at got
    · simp only [readBytes, Option.bind_eq_some_iff, Option.pure_def, Option.some.injEq, Prod.mk.injEq, Prod.exists,
        Option.ite_none_left_eq_some] at got
      obtain ⟨text, v, ⟨long, rfl, rfl⟩, rfl, rfl⟩ := got
      have length : (u.take n.toNat).length = n.toNat := by
        rw [List.length_take]
        omega
      rw [read8_readsBack.spelled first, read8_readsBack.spelled second]
      simp [KeyText.bytes, num8, length]
theorem readEnumeration_readsBack : ReadsBack readEnumeration Enumeration.bytes fun _ => True where
  back {e} _ r := by
    simp [readEnumeration, Enumeration.bytes, read16_readsBack.back, read24_readsBack.back, read8]
  spelled {r e r'} got := by
    simp only [readEnumeration, Option.bind_eq_bind, Option.bind_eq_some_iff, Option.pure_def, Option.some.injEq, Prod.mk.injEq,
      Prod.exists] at got
    obtain ⟨volume, t, first, issue, u, second, span, v, third, rfl, rfl⟩ := got
    rw [read16_readsBack.spelled first, read24_readsBack.spelled second, read8_readsBack.spelled third]
    simp [Enumeration.bytes]
theorem readIdent_readsBack : ReadsBack readIdent Ident.bytes fun i => i.text.length ≤ 16 where
  back {i} short r := by
    have key := readKey_readsBack.back (a := ⟨i.scheme, i.text⟩) short
    have enumeration := (readOpt_readsBack readEnumeration_readsBack).back (a := i.enumeration) fun _ _ => trivial
    simp only [KeyText.bytes, List.append_assoc, List.cons_append] at key
    simp [readIdent, Ident.bytes, key, enumeration]
  spelled {r i r'} got := by
    simp only [readIdent, Option.bind_eq_bind, Option.bind_eq_some_iff, Option.pure_def, Option.some.injEq, Prod.mk.injEq,
      Prod.exists] at got
    obtain ⟨key, t, first, enumeration, u, second, rfl, rfl⟩ := got
    rw [readKey_readsBack.spelled first, (readOpt_readsBack readEnumeration_readsBack).spelled second]
    simp [Ident.bytes, KeyText.bytes]
theorem readMedium_readsBack : ReadsBack (readCode Medium.all Medium.code) (fun m => [m.code]) fun _ => True :=
  readCode_readsBack fun m => by cases m <;> rfl
theorem readBelt_readsBack : ReadsBack (readCode Belt.all Belt.code) (fun b => [b.code]) fun _ => True :=
  readCode_readsBack fun b => by cases b <;> rfl
theorem readDiverter_readsBack : ReadsBack (readCode Diverter.all Diverter.code) (fun d => [d.code]) fun _ => True :=
  readCode_readsBack fun d => by cases d <;> rfl
theorem byte_eq_ofNat {b : Byte} {n : Nat} (h : b.toNat = n) : b = BitVec.ofNat 8 n := by
  rw [← h, BitVec.ofNat_toNat, BitVec.setWidth_eq]
theorem readObservation_readsBack : ReadsBack readObservation Observation.bytes fun o => o.wf = true where
  back {o} good r := by
    cases o with
    | ident i => simp [readObservation, Observation.bytes, read8, readIdent_readsBack.back (of_decide_eq_true good)]
    | weight g => simp [readObservation, Observation.bytes, read8, read16_readsBack.back]
    | size h w d => simp [readObservation, Observation.bytes, read8, read16_readsBack.back]
    | medium m =>
      have medium := readMedium_readsBack.back (a := m) trivial r
      simp only [List.cons_append, List.nil_append] at medium
      simp [readObservation, Observation.bytes, read8, medium]
  spelled {r o r'} got := by
    simp only [readObservation, Option.bind_eq_bind, Option.bind_eq_some_iff, Prod.exists] at got
    obtain ⟨kind, t, first, got⟩ := got
    rw [read8_readsBack.spelled first]
    split at got
    case h_1 code =>
      simp only [Option.bind_eq_some_iff, Option.pure_def, Option.some.injEq, Prod.mk.injEq, Prod.exists] at got
      obtain ⟨i, u, ident, rfl, rfl⟩ := got
      rw [byte_eq_ofNat code, readIdent_readsBack.spelled ident]
      rfl
    case h_2 code =>
      simp only [Option.bind_eq_some_iff, Option.pure_def, Option.some.injEq, Prod.mk.injEq, Prod.exists] at got
      obtain ⟨g, u, weight, rfl, rfl⟩ := got
      rw [byte_eq_ofNat code, read16_readsBack.spelled weight]
      rfl
    case h_3 code =>
      simp only [Option.bind_eq_some_iff, Option.pure_def, Option.some.injEq, Prod.mk.injEq, Prod.exists] at got
      obtain ⟨h, u, height, w, v, width, d, x, depth, rfl, rfl⟩ := got
      rw [byte_eq_ofNat code, read16_readsBack.spelled height, read16_readsBack.spelled width, read16_readsBack.spelled depth]
      simp [Observation.bytes]
    case h_4 code =>
      simp only [Option.bind_eq_some_iff, Option.pure_def, Option.some.injEq, Prod.mk.injEq, Prod.exists] at got
      obtain ⟨m, u, medium, rfl, rfl⟩ := got
      rw [byte_eq_ofNat code, readMedium_readsBack.spelled medium]
      rfl
    case h_5 => simp at got

/-! The records of a lane link. -/

/-- The fields of a station record read back with nothing left over. -/
theorem readStationFields_fieldBytes {r : StationRecord} (h : r.wf = true) : readStationFields r.typeCode r.fieldBytes = some (r, []) := by
  cases r with
  | heartbeat b d => cases b <;> cases d <;> rfl
  | itemBegin s =>
    simp [readStationFields, StationRecord.typeCode, StationRecord.fieldBytes, read16_readsBack.back_nil]
  | observation s o =>
    have observation := readObservation_readsBack.back_nil (a := o) h
    simp [readStationFields, StationRecord.typeCode, StationRecord.fieldBytes, read16_readsBack.back, observation]
  | itemEnd s o =>
    have observation := (readOpt_readsBack readObservation_readsBack).back_nil (a := o) (by rintro x rfl; exact h)
    simp [readStationFields, StationRecord.typeCode, StationRecord.fieldBytes, read16_readsBack.back, observation]
  | atGate s =>
    simp [readStationFields, StationRecord.typeCode, StationRecord.fieldBytes, read16_readsBack.back_nil]
  | confirm s x =>
    simp [readStationFields, StationRecord.typeCode, StationRecord.fieldBytes, read16_readsBack.back, read8]
/-- R61: a station record reads back from its type and its fields. -/
theorem decodeStation_fieldBytes {r : StationRecord} (h : r.wf = true) : decodeStation (r.typeCode :: r.fieldBytes) = some r := by
  simp only [decodeStation, readStationFields_fieldBytes h, h, if_true]
/-- Fields that read as a record are the fields it is written with, under its type. -/
theorem spelled_of_readStationFields {type : Byte} {fields : List Byte} {r : StationRecord} {rest : List Byte}
    (got : readStationFields type fields = some (r, rest)) : type = r.typeCode ∧ fields = r.fieldBytes ++ rest := by
  simp only [readStationFields, Option.bind_eq_bind, Option.pure_def] at got
  split at got
  case h_1 code =>
    simp only [Option.bind_eq_some_iff, Option.some.injEq, Prod.mk.injEq, Prod.exists] at got
    obtain ⟨b, t, belt, d, u, diverter, rfl, rfl⟩ := got
    rw [readBelt_readsBack.spelled belt, readDiverter_readsBack.spelled diverter]
    exact ⟨byte_eq_ofNat code, rfl⟩
  case h_2 code =>
    simp only [Option.bind_eq_some_iff, Option.some.injEq, Prod.mk.injEq, Prod.exists] at got
    obtain ⟨s, t, sq, rfl, rfl⟩ := got
    exact ⟨byte_eq_ofNat code, read16_readsBack.spelled sq⟩
  case h_3 code =>
    simp only [Option.bind_eq_some_iff, Option.some.injEq, Prod.mk.injEq, Prod.exists] at got
    obtain ⟨s, t, sq, o, u, observation, rfl, rfl⟩ := got
    rw [read16_readsBack.spelled sq, readObservation_readsBack.spelled observation]
    exact ⟨byte_eq_ofNat code, (List.append_assoc ..).symm⟩
  case h_4 code =>
    simp only [Option.bind_eq_some_iff, Option.some.injEq, Prod.mk.injEq, Prod.exists] at got
    obtain ⟨s, t, sq, o, u, observation, rfl, rfl⟩ := got
    rw [read16_readsBack.spelled sq, (readOpt_readsBack readObservation_readsBack).spelled observation]
    exact ⟨byte_eq_ofNat code, (List.append_assoc ..).symm⟩
  case h_5 code =>
    simp only [Option.bind_eq_some_iff, Option.some.injEq, Prod.mk.injEq, Prod.exists] at got
    obtain ⟨s, t, sq, rfl, rfl⟩ := got
    exact ⟨byte_eq_ofNat code, read16_readsBack.spelled sq⟩
  case h_6 code =>
    simp only [Option.bind_eq_some_iff, Option.some.injEq, Prod.mk.injEq, Prod.exists] at got
    obtain ⟨s, t, sq, x, u, outlet, rfl, rfl⟩ := got
    rw [read16_readsBack.spelled sq, read8_readsBack.spelled outlet]
    exact ⟨byte_eq_ofNat code, (List.append_assoc ..).symm⟩
  case h_7 => simp at got
/-- R61: bytes that decode to a record are its type and its fields. -/
theorem spelled_of_decodeStation {bytes : List Byte} {r : StationRecord} (h : decodeStation bytes = some r) :
    bytes = r.typeCode :: r.fieldBytes ∧ r.wf = true := by
  match bytes, h with
  | type :: fields, h =>
    simp only [decodeStation] at h
    split at h
    · next x read =>
      obtain ⟨wf, rfl⟩ : x.wf = true ∧ x = r := by simpa using h
      obtain ⟨same, spelled⟩ := spelled_of_readStationFields read
      exact ⟨by rw [same, spelled, List.append_nil], wf⟩
    · simp at h
theorem observation_bytes_length {o : Observation} (h : o.wf = true) : o.bytes.length ≤ 26 := by
  cases o with
  | ident i =>
    have text : i.text.length ≤ 16 := of_decide_eq_true h
    cases line : i.enumeration <;>
      simp [Observation.bytes, Ident.bytes, num8, optBytes, line, Enumeration.bytes, be16, be24] <;> omega
  | weight g => simp [Observation.bytes, be16]
  | size h w d => simp [Observation.bytes, be16]
  | medium m => simp [Observation.bytes]
theorem fieldBytes_length {r : StationRecord} (h : r.wf = true) : r.fieldBytes.length ≤ 29 := by
  cases r with
  | heartbeat b d => simp [StationRecord.fieldBytes]
  | itemBegin s => simp [StationRecord.fieldBytes, be16]
  | observation s o =>
    have := observation_bytes_length h
    simp [StationRecord.fieldBytes, be16]
    omega
  | itemEnd s o =>
    cases o with
    | none => simp [StationRecord.fieldBytes, be16, optBytes]
    | some o =>
      have := observation_bytes_length h
      simp [StationRecord.fieldBytes, be16, optBytes]
      omega
  | atGate s => simp [StationRecord.fieldBytes, be16]
  | confirm s x => simp [StationRecord.fieldBytes, be16]

/-! The receiver of a lane link. -/

theorem byteSum_append (bs : List Byte) (b : Byte) : byteSum (bs ++ [b]) = byteSum bs + b := by
  simp [byteSum, List.foldl_append]
/-- R60: what a record's check byte is. -/
theorem byteSum_eq_zero_iff {bs : List Byte} {b : Byte} : byteSum (bs ++ [b]) = 0x00#8 ↔ b = -(byteSum bs) := by
  rw [byteSum_append]
  constructor
  · intro h
    bv_omega
  · rintro rfl
    bv_omega
/-- R60: the bytes that begin 7EH, a length and a type are a record's when the length and the check byte agree. -/
theorem stationRecord_bytes_eq (r : StationRecord) : r.bytes =
    0x7E#8 :: BitVec.ofNat 8 (r.fieldBytes.length + 2) :: (r.typeCode :: r.fieldBytes ++
      [-(byteSum (0x7E#8 :: BitVec.ofNat 8 (r.fieldBytes.length + 2) :: r.typeCode :: r.fieldBytes))]) := rfl
/-- The receiver looks at no more bytes than there are. -/
theorem scanLane_fuel {n m : Nat} {buf : List Byte} (hn : buf.length ≤ n) (hm : buf.length ≤ m) : scanLane n buf = scanLane m buf := by
  induction n generalizing m buf with
  | zero =>
    obtain rfl : buf = [] := List.length_eq_zero_iff.mp (by omega)
    cases m <;> rfl
  | succ n ih =>
    cases m with
    | zero =>
      obtain rfl : buf = [] := List.length_eq_zero_iff.mp (by omega)
      rfl
    | succ m =>
      cases buf with
      | nil => rfl
      | cons b t =>
        simp only [List.length_cons, Nat.add_le_add_iff_right] at hn hm
        have tail : scanLane n t = scanLane m t := ih hn hm
        cases t with
        | nil => simp only [scanLane, tail]
        | cons c rest =>
          simp only [List.length_cons] at hn hm
          have behind : scanLane n (rest.drop c.toNat) = scanLane m (rest.drop c.toNat) :=
            ih (by rw [List.length_drop]; omega) (by rw [List.length_drop]; omega)
          simp only [scanLane, tail, behind]
/-- What the receiver makes of the bytes between a record's length byte and its check byte. -/
def recordTaken (bytes : List Byte) : LaneEvent :=
  match decodeStation bytes with
  | some r => .record r
  | none => .notWellFormed
/-- R60, R61: the receiver at a record that is all there. -/
theorem scanLane_enclosed {len : Byte} {taken : List Byte} (length : taken.length = len.toNat) (rest : List Byte) (n : Nat) :
    scanLane (n + 1) (0x7E#8 :: len :: (taken ++ rest)) =
      if byteSum (0x7E#8 :: len :: taken) = 0x00#8 then
        (recordTaken taken.dropLast :: (scanLane n rest).1, (scanLane n rest).2)
      else (.checkFailure :: (scanLane n (len :: (taken ++ rest))).1, (scanLane n (len :: (taken ++ rest))).2) := by
  have whole : ¬ (taken ++ rest).length < len.toNat := by
    rw [List.length_append]
    omega
  have front : (taken ++ rest).take len.toNat = taken := by rw [← length, List.take_left]
  have behind : (taken ++ rest).drop len.toNat = rest := by rw [← length, List.drop_left]
  simp only [scanLane, ne_eq, not_true_eq_false, if_false, if_neg whole, front, behind]
  split
  · cases decoded : decodeStation taken.dropLast <;> simp only [recordTaken, decoded]
  · rfl
theorem scanLane_record {r : StationRecord} (h : r.wf = true) (rest : List Byte) :
    scanLane (r.bytes ++ rest).length (r.bytes ++ rest) = (.record r :: (scanLane rest.length rest).1, (scanLane rest.length rest).2) := by
  have short := fieldBytes_length h
  obtain ⟨check, bytes, sum⟩ : ∃ check, r.bytes = 0x7E#8 :: BitVec.ofNat 8 (r.fieldBytes.length + 2) :: (r.typeCode :: r.fieldBytes ++ [check]) ∧
      byteSum (0x7E#8 :: BitVec.ofNat 8 (r.fieldBytes.length + 2) :: (r.typeCode :: r.fieldBytes ++ [check])) = 0x00#8 :=
    ⟨_, stationRecord_bytes_eq r, (byteSum_eq_zero_iff (bs := 0x7E#8 :: _ :: r.typeCode :: r.fieldBytes)).mpr rfl⟩
  have enclosed := scanLane_enclosed (len := BitVec.ofNat 8 (r.fieldBytes.length + 2)) (taken := r.typeCode :: r.fieldBytes ++ [check])
    (by simp; omega) rest (r.fieldBytes.length + rest.length + 3)
  rw [if_pos sum, List.dropLast_concat, recordTaken, decodeStation_fieldBytes h, scanLane_fuel (m := rest.length) (by omega) le_rfl]
    at enclosed
  rw [bytes]
  refine Eq.trans ?_ enclosed
  refine scanLane_fuel le_rfl ?_
  simp
  omega
theorem scanLane_checkFailure {len : Byte} {taken rest : List Byte} (length : taken.length = len.toNat)
    (fails : byteSum (0x7E#8 :: len :: taken) ≠ 0x00#8) :
    scanLane (taken.length + rest.length + 2) (0x7E#8 :: len :: taken ++ rest) =
      (.checkFailure :: (scanLane (taken.length + rest.length + 1) (len :: taken ++ rest)).1,
        (scanLane (taken.length + rest.length + 1) (len :: taken ++ rest)).2) :=
  (scanLane_enclosed length rest _).trans (if_neg fails)
/-- R61: a record that passes its check and spells no record. -/
theorem scanLane_notWellFormed {len : Byte} {taken rest : List Byte} (length : taken.length = len.toNat)
    (passes : byteSum (0x7E#8 :: len :: taken) = 0x00#8) (none : ∀ r : StationRecord, r.wf = true → r.bytes ≠ 0x7E#8 :: len :: taken) :
    scanLane (taken.length + rest.length + 2) (0x7E#8 :: len :: taken ++ rest) =
      (.notWellFormed :: (scanLane rest.length rest).1, (scanLane rest.length rest).2) := by
  have unspelled : decodeStation taken.dropLast = .none := by
    refine Option.eq_none_iff_forall_ne_some.mpr fun r decoded => ?_
    obtain ⟨fields, wf⟩ := spelled_of_decodeStation decoded
    have some : taken ≠ [] := by
      rintro rfl
      simp at fields
    obtain ⟨check, same⟩ : ∃ check, taken = r.typeCode :: r.fieldBytes ++ [check] :=
      ⟨taken.getLast some, by rw [← fields, List.dropLast_append_getLast]⟩
    have len_eq : len = BitVec.ofNat 8 (r.fieldBytes.length + 2) := by
      refine byte_eq_ofNat (length.symm.trans ?_)
      simp [same]
    subst same len_eq
    have check_eq := byteSum_eq_zero_iff (bs := 0x7E#8 :: _ :: r.typeCode :: r.fieldBytes).mp passes
    exact none r wf (by rw [stationRecord_bytes_eq r, check_eq])
  rw [scanLane_fuel (m := taken.length + rest.length + 1) le_rfl (by omega)]
  refine (scanLane_enclosed length rest _).trans ((if_pos passes).trans ?_)
  rw [recordTaken, unspelled, scanLane_fuel (m := rest.length) (by omega) le_rfl]
theorem scanLane_partial {buf : List Byte}
    (h : buf = [] ∨ buf = [0x7E#8] ∨ ∃ len rest, buf = 0x7E#8 :: len :: rest ∧ rest.length < len.toNat) :
    scanLane buf.length buf = ([], buf) := by
  obtain rfl | rfl | ⟨len, rest, rfl, short⟩ := h
  · rfl
  · rfl
  · simp only [scanLane, List.length_cons, ne_eq, not_true_eq_false, if_false, if_pos short]

/-! The receivers. -/

theorem instr_eq_eventOf (l : LaneId) (r : StationRecord) : LaneEvent.instr l (.record r) = eventOf l r := by
  cases r <;> rfl

/-- Settles O6: the framer, the receiver of a lane, and what each puts at the tail of the queue. -/
theorem receiversTakeWholeFrames : Obligations.ReceiversTakeWholeFrames := by
  refine ⟨fun code tag body rest fits => scanHost_frame code tag fits rest, fun hi lo rest long => ?length,
    fun hi lo covered sum rest fits length two fails => ?crc, fun b rest passed => scanHost_passes passed _, fun buf => scanHost_partial,
    fun r rest wf => scanLane_record wf rest, fun len taken rest => scanLane_checkFailure, fun len taken rest => scanLane_notWellFormed,
    fun b rest other => ?passes, fun buf => scanLane_partial, fun s bytes es keep scanned => ?host, fun s l bytes disabled => if_pos disabled,
    fun s l bytes es keep enabled scanned => ?lane⟩
  case length => exact (scanHost_marker (rest.length + 3) hi lo rest).trans (if_pos long)
  case crc => exact ⟨_, rfl, (scanHost_enclosed fits length two _).trans (if_neg fails)⟩
  case passes => exact if_pos other
  case host =>
    rw [State.receiveHost, scanned]
    rfl
  case lane =>
    simp only [State.receiveLane, if_neg enabled, scanned]
    refine congrArg (fun q => State.setLane { s with pending := s.pending ++ q } l { s.lane l with rx := keep })
      (List.map_congr_left fun e _ => ?_)
    cases e with
    | record r => exact instr_eq_eventOf l r
    | checkFailure => rfl
    | notWellFormed => rfl

end Sys2Proof.Machine
end

section
/-! The form of a lane and its ranges, and what each change of a lane makes of them (R63, R83, R85, R87, R101, R175, R178). -/

namespace Sys2Proof.Machine

/-! The form of a lane, in the parts that changes touch. -/

/-- R83, R85: the items of a lane, and the number it expects, in their form. -/
def Lane.itemsFormed (v : Lane) : Prop :=
  (v.state = .disabled ∨ v.state = .stopped → v.queue = [] ∧ v.held = none) ∧ v.queue.length ≤ v.config.depth ∧
  (v.config.depth = 16 ∨ v.config.depth = 32) ∧ (∀ i ∈ v.queue.dropLast, i.state = .decided) ∧
  (∀ i ∈ v.queue, i.state ≠ .confirming) ∧ (∀ h ∈ v.held, h.item.state = .confirming) ∧ v.inSequence = true
/-- The form of a lane whose hold flag is still to be re-evaluated. -/
def Lane.formed (v : Lane) : Prop := v.itemsFormed ∧ (v.sending = none → v.outbox = [])
theorem wf_iff_formed (v : Lane) : v.wf ↔ v.formed ∧ v.hold = v.holdConditions := by
  constructor
  · rintro ⟨service, depth, depths, decided, confirming, held, sequence, hold, sends⟩
    exact ⟨⟨⟨service, depth, depths, decided, confirming, held, sequence⟩, sends⟩, hold⟩
  · rintro ⟨⟨⟨service, depth, depths, decided, confirming, held, sequence⟩, sends⟩, hold⟩
    exact ⟨service, depth, depths, decided, confirming, held, sequence, hold, sends⟩
/-- R101, R174: the test unit and the fault count within their ranges. -/
def Lane.inRange (v : Lane) : Prop := TestUnit.wf v.test ∧ v.faults ≤ Config.faultLimit
/-- From v to w the lane keeps its form, and its ranges. -/
def Lane.keeps (v w : Lane) : Prop := (v.wf → w.wf) ∧ (v.inRange → w.inRange)
/-- From v to w the lane keeps its form but for the hold flag, and its ranges. -/
def Lane.keepsForm (v w : Lane) : Prop := (v.wf → w.formed) ∧ (v.inRange → w.inRange)

theorem laneKeeps_refl (v : Lane) : v.keeps v := ⟨id, id⟩
theorem laneKeeps_trans {u v w : Lane} (h : u.keeps v) (h' : v.keeps w) : u.keeps w := ⟨h'.1 ∘ h.1, h'.2 ∘ h.2⟩

/-! What a lane sends (R63). -/

theorem sending_produce (v : Lane) (r : LaneOut) : (v.produce r).sending ≠ none := by
  cases h : v.sending <;> simp [Lane.produce, h]
theorem itemsFormed_produce {v : Lane} (r : LaneOut) (h : v.itemsFormed) : (v.produce r).itemsFormed := by
  rw [produce_eq]
  exact h
theorem formed_produce {v : Lane} (r : LaneOut) (h : v.itemsFormed) : (v.produce r).formed :=
  ⟨itemsFormed_produce r h, fun none => absurd none (sending_produce v r)⟩
theorem wf_produce {v : Lane} (r : LaneOut) (items : v.itemsFormed) (hold : v.hold = v.holdConditions) : (v.produce r).wf := by
  refine (wf_iff_formed _).mpr ⟨formed_produce r items, ?_⟩
  rw [produce_eq]
  exact hold
theorem inRange_produce {v : Lane} (r : LaneOut) (h : v.inRange) : (v.produce r).inRange := by
  rw [produce_eq]
  exact h
theorem keeps_produce (v : Lane) (r : LaneOut) : v.keeps (v.produce r) :=
  ⟨fun wf => have ⟨⟨items, _⟩, hold⟩ := (wf_iff_formed v).mp wf
    wf_produce r items hold, inRange_produce r⟩
/-- R63: the end of a record's sending. -/
theorem keeps_sent (v : Lane) : v.keeps v.sent := by
  unfold Lane.sent
  split
  · exact laneKeeps_refl v
  · next outbox =>
    refine ⟨fun wf => ?_, id⟩
    obtain ⟨⟨items, -⟩, hold⟩ := (wf_iff_formed v).mp wf
    exact (wf_iff_formed _).mpr ⟨⟨items, fun _ => outbox⟩, hold⟩
  · refine ⟨fun wf => ?_, id⟩
    obtain ⟨⟨items, -⟩, hold⟩ := (wf_iff_formed v).mp wf
    exact (wf_iff_formed _).mpr ⟨⟨items, fun none => nomatch none⟩, hold⟩

/-! The hold flag (R87, R88). -/

/-- R87, R88: the lane with its hold flag re-evaluated, and a change told its station. -/
def Lane.following (v : Lane) : Lane :=
  if v.holdConditions = v.hold then v
  else ({ v with hold := v.holdConditions } : Lane).produce (if v.holdConditions then .hold else .release)
theorem lane_reevaluate_following (s : State) (l : LaneId) : (s.reevaluate l).lane l = (s.lane l).following := by
  unfold State.reevaluate Lane.following
  dsimp only
  split
  · rfl
  · rw [lane_laneNotice, lane_onLane_same]
theorem keeps_following {v w : Lane} (h : v.keepsForm w) : v.keeps w.following := by
  obtain ⟨form, range⟩ := h
  unfold Lane.following
  split
  · next same => exact ⟨fun wf => (wf_iff_formed w).mpr ⟨form wf, same.symm⟩, range⟩
  · exact ⟨fun wf => wf_produce _ (form wf).1 rfl, inRange_produce _ ∘ range⟩
/-- R69, R88: a lane out of service holds, and tells its station so. -/
theorem keeps_toldHold {v w : Lane} (h : v.keepsForm w) (inactive : w.state ≠ .active) : v.keeps w.toldHold := by
  obtain ⟨form, range⟩ := h
  have holds : w.holdConditions = true := by simp [Lane.holdConditions, inactive]
  unfold Lane.toldHold
  split
  · next hold => exact ⟨fun wf => (wf_iff_formed w).mpr ⟨form wf, by rw [hold, holds]⟩, range⟩
  · exact ⟨fun wf => wf_produce _ (form wf).1 holds.symm, inRange_produce _ ∘ range⟩

/-! The items of a lane (R83, R85). -/

/-- R83: the number of each item of the queue, counted down from the expected number. -/
theorem inSequence_iff (v : Lane) : v.inSequence = true ↔ (v.expected = none → v.queue = []) ∧
    ∀ e ∈ v.expected, ∀ i (h : i < v.queue.length), v.queue[i].sq = e - BitVec.ofNat 16 (v.queue.length - i) := by
  unfold Lane.inSequence
  cases v.expected with
  | none => simp
  | some e =>
    simp only [beq_iff_eq, Option.mem_def, Option.some.injEq, reduceCtorEq, false_implies, true_and, forall_eq']
    constructor
    · intro h i inside
      have := List.getElem_of_eq h (i := i) (by simpa using inside)
      simpa using this
    · intro h
      refine List.ext_getElem (by simp) fun i inside _ => ?_
      simpa using h i (by simpa using inside)
theorem itemsFormed_of_empty {v : Lane} (queue : v.queue = []) (held : v.held = none)
    (depth : v.config.depth = 16 ∨ v.config.depth = 32) : v.itemsFormed := by
  refine ⟨fun _ => ⟨queue, held⟩, by simp [queue], depth, by simp [queue], by simp [queue], by simp [held], ?_⟩
  rw [inSequence_iff]
  exact ⟨fun _ => queue, fun e _ i inside => by simp [queue] at inside⟩
theorem depth_of_wf {v : Lane} (h : v.wf) : v.config.depth = 16 ∨ v.config.depth = 32 := h.2.2.1
/-- R96: the items up to one of the queue leave. -/
theorem itemsFormed_cut {v : Lane} {ahead rest : List Item} (h : v.itemsFormed) (queue : v.queue = ahead ++ rest) :
    Lane.itemsFormed { v with queue := rest } := by
  obtain ⟨service, depth, depths, decided, confirming, held, sequence⟩ := h
  rw [inSequence_iff] at sequence
  rw [queue] at service depth decided confirming sequence
  obtain ⟨absent, numbers⟩ := sequence
  refine ⟨fun out => ⟨(List.append_eq_nil_iff.mp (service out).1).2, (service out).2⟩, ?_, depths, fun i here => ?_,
    fun i here => confirming i (List.mem_append_right _ here), held, ?_⟩
  · exact le_trans (by simp) depth
  · refine decided i ?_
    have some : rest ≠ [] := by
      rintro rfl
      simp at here
    rw [List.dropLast_append_of_ne_nil some]
    exact List.mem_append_right _ here
  · rw [inSequence_iff]
    refine ⟨fun none => (List.append_eq_nil_iff.mp (absent none)).2, fun e some i inside => ?_⟩
    have inside : i < rest.length := inside
    have number := numbers e some (ahead.length + i) (by simpa using inside)
    rw [List.getElem_append_right (by omega)] at number
    simpa [Nat.add_sub_add_left] using number
/-- R86: a new item behind the others, when there is room. -/
theorem itemsFormed_queued {v : Lane} (l : LaneId) {sq : Seq} (number : Option Nat) (reserved : Bool) (h : v.itemsFormed)
    (room : v.queue.length < v.config.depth) (service : v.state = .active) (reading : ∀ i ∈ v.queue, i.state ≠ .reading)
    (expected : ∀ e, v.expected = some e → e = sq) : (v.queued l sq number reserved).itemsFormed := by
  obtain ⟨-, -, depths, -, confirming, held, sequence⟩ := h
  rw [inSequence_iff] at sequence
  obtain ⟨absent, numbers⟩ := sequence
  refine ⟨fun out => ?_, ?_, depths, fun i here => ?_, fun i here => ?_, held, ?_⟩
  · have active : (v.queued l sq number reserved).state = .active := service
    simp [active] at out
  · simpa [Lane.queued] using room
  · rw [Lane.queued, List.dropLast_concat] at here
    have unread := reading i here
    have unsent := confirming i here
    cases state : i.state <;> simp_all
  · obtain old | rfl : i ∈ v.queue ∨ i = newItem l sq number reserved := by simpa [Lane.queued] using here
    · exact confirming i old
    · simp [newItem]
  · rw [inSequence_iff]
    refine ⟨fun none => (nomatch none), fun e next i inside => ?_⟩
    obtain rfl : sq + 1#16 = e := Option.some.inj next
    simp only [Lane.queued, List.length_append, List.length_singleton] at inside ⊢
    by_cases old : i < v.queue.length
    · obtain ⟨e, expects⟩ : ∃ e, v.expected = some e := by
        refine Option.ne_none_iff_exists'.mp fun none => ?_
        rw [absent none] at old
        simp at old
      obtain rfl := expected e expects
      rw [List.getElem_append_left old, numbers e expects i old, Nat.sub_add_comm old.le, BitVec.ofNat_add]
      bv_omega
    · obtain rfl : i = v.queue.length := by omega
      rw [List.getElem_concat_length rfl, Nat.add_sub_cancel_left]
      simp [newItem]
/-- R89, R90: a change of the READING item alone. -/
theorem itemsFormed_onReading {v : Lane} {f : Item → Item} (h : v.itemsFormed) (sq : ∀ i, (f i).sq = i.sq)
    (state : ∀ i, i.state = .reading → (f i).state ≠ .confirming) : (v.onReading f).itemsFormed := by
  obtain ⟨service, depth, depths, decided, confirming, held, sequence⟩ := h
  rw [inSequence_iff] at sequence
  obtain ⟨absent, numbers⟩ := sequence
  refine ⟨fun out => ?_, by simpa [Lane.onReading] using depth, depths, fun i here => ?_, fun i here => ?_, held, ?_⟩
  · obtain ⟨queue, held⟩ := service out
    exact ⟨by simp [Lane.onReading, queue], held⟩
  · rw [Lane.onReading, ← List.map_dropLast] at here
    obtain ⟨j, there, rfl⟩ := List.mem_map.mp here
    rw [if_neg (by simp [decided j there])]
    exact decided j there
  · obtain ⟨j, there, rfl⟩ := List.mem_map.mp here
    split
    · next reading => exact state j reading
    · exact confirming j there
  · rw [inSequence_iff]
    refine ⟨fun none => by simp [Lane.onReading, absent none], fun e some i inside => ?_⟩
    have inside : i < v.queue.length := by simpa [Lane.onReading] using inside
    have number := numbers e some i inside
    simp only [Lane.onReading, List.getElem_map, List.length_map, ← number]
    split <;> simp [sq]

/-! The test unit (R174 to R178). -/

/-- R175: the generator goes from no value to 0. -/
theorem generatorStep_ne_zero {g : BitVec 15} (h : g ≠ 0#15) : generatorStep g ≠ 0#15 := by
  intro zero
  refine h (BitVec.eq_of_getLsbD_eq fun i inside => ?_)
  have bit (k : Nat) : (generatorStep g).getLsbD k = false := by simp [zero]
  have below (k : Nat) (hk : k < 14) : g.getLsbD k = false := by
    have := bit (k + 1)
    simp only [generatorStep, BitVec.getLsbD_or, Bool.or_eq_false_iff, BitVec.getLsbD_shiftLeft] at this
    simpa [show k + 1 < 15 by omega] using this.1
  have last : g.getLsbD 14 = g.getLsbD 13 := by
    have := bit 0
    simp only [generatorStep, BitVec.getLsbD_or, Bool.or_eq_false_iff] at this
    by_contra differ
    rw [if_pos (bne_iff_ne.mpr differ)] at this
    simp at this
  have top : g.getLsbD 14 = false := last.trans (below 13 (by omega))
  rw [BitVec.getLsbD_zero]
  by_cases low : i < 14
  · exact below i low
  · rwa [show i = 14 by omega]
/-- R175: a TEST ITEM sent while fewer than 4 are outstanding. -/
theorem keeps_testItem {v : Lane} (room : v.test.outstanding.length < 4) : v.keeps v.testItem := by
  refine ⟨fun wf => ?_, fun ⟨⟨generator, length, values, gain, loss⟩, faults⟩ => inRange_produce _ ?_⟩
  · obtain ⟨⟨items, -⟩, hold⟩ := (wf_iff_formed v).mp wf
    exact wf_produce _ items hold
  · refine ⟨⟨generatorStep_ne_zero generator, ?_, fun o there => ?_, gain, loss⟩, faults⟩
    · rw [List.length_append]
      exact room
    · obtain old | rfl : o ∈ v.test.outstanding ∨ o = ⟨v.test.generator, v.test.inject⟩ := by simpa using there
      · exact values o old
      · exact generator
theorem keeps_testItems (n : Nat) (v : Lane) : v.keeps (v.testItems n) := by
  induction n generalizing v with
  | zero => exact laneKeeps_refl v
  | succ n ih =>
    unfold Lane.testItems
    split
    · next sends => exact laneKeeps_trans (keeps_testItem sends.2) (ih v.testItem)
    · exact laneKeeps_refl v
theorem testUnitWf_count {t : TestUnit} (r : TestResult) (h : TestUnit.wf t) : TestUnit.wf (t.count r) := by
  cases r <;> exact h
/-- R178: the runs stop at their lengths. -/
theorem testUnitWf_follow {t : TestUnit} (r : TestResult) (h : TestUnit.wf t) : TestUnit.wf (t.follow r) := by
  obtain ⟨generator, length, values, -, -⟩ := h
  cases r with
  | correct | injectedDetected => exact ⟨generator, length, values, min_le_right _ _, Nat.zero_le _⟩
  | error => exact ⟨generator, length, values, Nat.zero_le _, min_le_right _ _⟩
/-- R177: a comparison takes the oldest entry, or none. -/
theorem testUnitWf_take {t : TestUnit} (i : Option Ident) (h : TestUnit.wf t) : TestUnit.wf (t.take i).1 := by
  unfold TestUnit.take
  split
  · exact testUnitWf_follow _ (testUnitWf_count _ h)
  · next o rest outstanding =>
    obtain ⟨generator, length, values, runs⟩ := h
    rw [outstanding] at length values
    refine testUnitWf_follow _ (testUnitWf_count _ ⟨generator, ?_, fun x there => values x (List.mem_cons_of_mem _ there), runs⟩)
    exact le_trans (by simp) length
theorem testUnitWf_reset : TestUnit.wf .reset := by decide

/-! The changes of a lane. -/

/-- A change of what the form of a lane does not read. -/
theorem keeps_of_formed {v w : Lane} (items : v.itemsFormed → w.itemsFormed)
    (hold : v.hold = v.holdConditions → w.hold = w.holdConditions)
    (sends : w.sending = v.sending ∧ w.outbox = v.outbox) (range : v.inRange → w.inRange) : v.keeps w := by
  obtain ⟨sending, outbox⟩ := sends
  refine ⟨fun wf => ?_, range⟩
  obtain ⟨⟨formed, sent⟩, held⟩ := (wf_iff_formed v).mp wf
  exact (wf_iff_formed w).mpr ⟨⟨items formed, by rwa [sending, outbox]⟩, hold held⟩
theorem faults_windowClosed {v : Lane} (r : ConfirmResult) (h : v.faults ≤ 3) : (v.windowClosed r).faults ≤ 3 := by
  unfold Lane.windowClosed
  split
  · exact h
  · exact Nat.zero_le _
  · exact h
  · exact min_le_right _ _
  · exact min_le_right _ _
/-- R99 to R101: what the closing of a window changes of a lane. -/
theorem windowClosed_form (v : Lane) (r : ConfirmResult) : v.windowClosed r =
    { v with
      held := none
      faults := (v.windowClosed r).faults
      faultLevel := (v.windowClosed r).faultLevel
      counters := (v.windowClosed r).counters } := by
  cases held : v.held with
  | none =>
    rw [windowClosed_of_none held, ← held]
  | some h =>
    rw [windowClosed_eq held]
    cases r <;> rfl
theorem itemsFormed_windowClosed {v : Lane} (r : ConfirmResult) (h : v.itemsFormed) : (v.windowClosed r).itemsFormed := by
  obtain ⟨service, depth, depths, decided, confirming, -, sequence⟩ := h
  rw [windowClosed_form]
  exact ⟨fun out => ⟨(service out).1, rfl⟩, depth, depths, decided, confirming, by simp, sequence⟩
theorem inRange_windowClosed {v : Lane} (r : ConfirmResult) (h : v.inRange) : (v.windowClosed r).inRange := by
  obtain ⟨test, faults⟩ := h
  refine ⟨?_, faults_windowClosed r faults⟩
  rw [windowClosed_form]
  exact test
theorem keeps_windowClosed (v : Lane) (r : ConfirmResult) : v.keeps (v.windowClosed r) := by
  refine keeps_of_formed (itemsFormed_windowClosed r) ?_ ?_ (inRange_windowClosed r)
  · rw [windowClosed_form]
    exact id
  · rw [windowClosed_form]
    exact ⟨rfl, rfl⟩
/-- R89, R90: a change of the READING item, and of the test unit and the counters beside it. -/
theorem keeps_onReading {v : Lane} {f : Item → Item} (test : TestUnit) (counters : LaneCounters) (sq : ∀ i, (f i).sq = i.sq)
    (state : ∀ i, i.state = .reading → (f i).state ≠ .confirming) (range : TestUnit.wf v.test → TestUnit.wf test) :
    v.keeps { v.onReading f with test := test, counters := counters } := by
  refine keeps_of_formed (fun items => itemsFormed_onReading items sq state) (fun hold => hold.trans ?_) ⟨rfl, rfl⟩
    fun ⟨ranges, faults⟩ => ⟨range ranges, faults⟩
  simp [Lane.holdConditions, Lane.occupancy, Lane.onReading]
/-- R70: a refusal. -/
theorem keeps_refusing {v : Lane} {sq : Seq} (expected : ∀ e, v.expected = some e → e = sq) : v.keeps (v.refusing sq) := by
  have counted : v.keeps { v with expected := some sq, counters := { v.counters with refused := bump v.counters.refused } } := by
    refine keeps_of_formed (fun items => ?_) id ⟨rfl, rfl⟩ id
    obtain ⟨service, depth, depths, decided, confirming, held, sequence⟩ := items
    refine ⟨service, depth, depths, decided, confirming, held, ?_⟩
    rw [inSequence_iff] at sequence ⊢
    obtain ⟨absent, numbers⟩ := sequence
    refine ⟨fun none => (nomatch none), fun e next i inside => ?_⟩
    obtain rfl : sq = e := Option.some.inj next
    obtain ⟨e, expects⟩ : ∃ e, v.expected = some e := by
      refine Option.ne_none_iff_exists'.mp fun none => ?_
      have inside : i < v.queue.length := inside
      rw [absent none] at inside
      simp at inside
    obtain rfl := expected e expects
    exact numbers e expects i inside
  exact laneKeeps_trans counted (keeps_produce _ _)
/-- R86, R87: an admission, which a lane that is held does not make. -/
theorem keepsForm_admitting {v : Lane} (l : LaneId) {sq : Seq} (number : Option Nat) (reserved : Bool) (unheld : v.hold = false)
    (reading : v.readingItem = none) (expected : ∀ e, v.expected = some e → e = sq) :
    v.keepsForm (v.admitting l sq number reserved) := by
  refine ⟨fun wf => formed_produce _ ?_, inRange_produce (v := v.queued l sq number reserved) _⟩
  obtain ⟨⟨items, -⟩, hold⟩ := (wf_iff_formed v).mp wf
  have conditions : v.holdConditions = false := by rw [← hold, unheld]
  simp only [Lane.holdConditions, Bool.or_eq_false_iff, beq_eq_false_iff_ne, bne_eq_false_iff_eq, Lane.occupancy] at conditions
  obtain ⟨⟨full, -⟩, active⟩ := conditions
  have ⟨_, depth, _⟩ := items
  exact itemsFormed_queued l number reserved items (lt_of_le_of_ne depth full) active
    (fun i here => by simpa using List.find?_eq_none.mp reading i here) expected
/-- R73, R104: the items of a lane gone, and its state another; its test unit OUT OF SYNC. -/
theorem keepsForm_emptied {v w : Lane} (queue : w.queue = []) (held : w.held = none) (config : w.config = v.config)
    (sends : w.sending = v.sending ∧ (w.outbox = v.outbox ∨ w.outbox = [])) (range : v.inRange → w.inRange) : v.keepsForm w := by
  refine ⟨fun wf => ⟨itemsFormed_of_empty queue held (config ▸ depth_of_wf wf), fun none => ?_⟩, range⟩
  obtain ⟨⟨-, sent⟩, -⟩ := (wf_iff_formed v).mp wf
  obtain ⟨sending, outbox | outbox⟩ := sends
  · rw [outbox, sent (sending ▸ none)]
  · exact outbox

/-! The changes that take a lane into service and out of it. -/

theorem keeps_disabledAs (v : Lane) : v.keeps v.disabledAs.toldHold :=
  keeps_toldHold (keepsForm_emptied rfl rfl rfl ⟨rfl, .inr rfl⟩ id) (by simp [Lane.disabledAs])
/-- A lane out of service holds. -/
theorem holds_of_disabled {v : Lane} (h : v.state = .disabled) : v.holdConditions = true := by simp [Lane.holdConditions, h]
/-- R65: a lane entering service has no items. -/
theorem keeps_enable {v : Lane} (h : v.state = .disabled) : v.keeps v.enable := by
  refine ⟨fun wf => ?_, fun ⟨test, faults⟩ => inRange_produce _ ⟨?_, faults⟩⟩
  · obtain ⟨queue, held⟩ := wf.1 (.inl h)
    have depth := depth_of_wf wf
    exact wf_produce _ (itemsFormed_of_empty queue held depth) (by simp [Lane.holdConditions])
  · dsimp only
    split
    · exact test
    · exact testUnitWf_reset
/-- R82: a lane out of service takes its RESTART values. -/
theorem keeps_restarted {v : Lane} (h : v.state = .disabled) : v.keeps v.restarted := by
  refine ⟨fun wf => ?_, fun _ => ⟨testUnitWf_reset, Nat.zero_le _⟩⟩
  obtain ⟨queue, held⟩ := wf.1 (.inl h)
  obtain ⟨⟨-, sends⟩, -⟩ := (wf_iff_formed v).mp wf
  have depth := depth_of_wf wf
  exact (wf_iff_formed _).mpr ⟨⟨itemsFormed_of_empty queue held depth, sends⟩, (holds_of_disabled rfl).symm⟩
/-- R77: a lane in service takes notice enables alone. -/
theorem depth_apply {c : LaneConfig} {f : ConfigureFields} (h : ConfigureFields.enablesOnly f = true) : (c.apply f).depth = c.depth := by
  simp only [ConfigureFields.enablesOnly, Bool.and_eq_true, Option.isNone_iff_eq_none] at h
  simp [LaneConfig.apply, h]
theorem depth_apply_of {c : LaneConfig} (f : ConfigureFields) (h : c.depth = 16 ∨ c.depth = 32) :
    (c.apply f).depth = 16 ∨ (c.apply f).depth = 32 := by
  cases depth : f.depth with
  | none => simpa [LaneConfig.apply, depth] using h
  | some b =>
    by_cases few : b.toNat ≤ 24 <;> simp [LaneConfig.apply, depth, depthOf, few]
theorem keeps_configured {v : Lane} {f : ConfigureFields} (configured : Bool)
    (h : v.state ≠ .disabled → ConfigureFields.enablesOnly f = true) :
    v.keeps { v with config := v.config.apply f, configured := configured } := by
  by_cases disabled : v.state = .disabled
  · refine ⟨fun wf => ?_, id⟩
    obtain ⟨queue, held⟩ := wf.1 (.inl disabled)
    obtain ⟨⟨-, sends⟩, hold⟩ := (wf_iff_formed v).mp wf
    refine (wf_iff_formed _).mpr ⟨⟨itemsFormed_of_empty queue held (depth_apply_of f (depth_of_wf wf)), sends⟩, hold.trans ?_⟩
    rw [holds_of_disabled disabled, holds_of_disabled]
    exact disabled
  · have depth := depth_apply (c := v.config) (h disabled)
    refine keeps_of_formed (fun items => ?_) (fun hold => hold.trans ?_) ⟨rfl, rfl⟩ id
    · obtain ⟨service, within, depths, rest⟩ := items
      exact ⟨service, depth.symm ▸ within, depth.symm ▸ depths, rest⟩
    · simp only [Lane.holdConditions, Lane.occupancy, depth]
/-- R171: a lane out of service may take any mode. -/
theorem keeps_mode {v : Lane} (m : LaneMode) (h : v.state = .disabled) : v.keeps { v with mode := m } := by
  refine keeps_of_formed id (fun hold => hold.trans ?_) ⟨rfl, rfl⟩ id
  rw [holds_of_disabled h, holds_of_disabled]
  exact h
/-- R192: a lane after CLEAR: what is being sent is sent to its end. -/
theorem keeps_cleared (v : Lane) (sending : Option LaneOut) : v.keeps { Lane.reset with sending := sending } :=
  ⟨fun _ => (wf_iff_formed _).mpr ⟨⟨itemsFormed_of_empty rfl rfl (.inl rfl), fun _ => rfl⟩, rfl⟩,
    fun _ => ⟨testUnitWf_reset, Nat.zero_le _⟩⟩

end Sys2Proof.Machine
end

section
/-! What the blocks beside the lanes leave alone: the lanes and the waiting commands (R20, R32, R121, R131, R156, R161, R185, R189). -/

namespace Sys2Proof.Machine

/-- The waiting commands stand, and every lane. -/
def State.besides (s t : State) : Prop := t.pending = s.pending ∧ t.lanes = s.lanes

theorem besides_refl (s : State) : s.besides s := ⟨rfl, rfl⟩
theorem besides_trans {s t u : State} (h : s.besides t) (h' : t.besides u) : s.besides u := by
  obtain ⟨pending, lanes⟩ := h
  obtain ⟨pending', lanes'⟩ := h'
  exact ⟨pending'.trans pending, lanes'.trans lanes⟩
theorem besides_ite {s t u : State} (c : Prop) [Decidable c] (ht : s.besides t) (hu : s.besides u) : s.besides (if c then t else u) := by
  split
  · exact ht
  · exact hu
theorem foldl_besides {α : Type} {f : State → α → State} (step : ∀ (s : State) (a : α), s.besides (f s a)) (xs : List α)
    (s : State) : s.besides (xs.foldl f s) :=
  foldl_keeps (P := s.besides) (fun u a h => besides_trans h (step u a)) xs s (besides_refl s)

/-! Notices and the line. -/

theorem besides_ask (s : State) (a : Source) (c : NoticeCondition) (e : Edge) (d : Detail) : s.besides (s.ask a c e d) := by
  simp [State.besides]
theorem besides_laneNotice (s : State) (l : LaneId) (c : NoticeCondition) (e : Edge) (d : Detail) : s.besides (s.laneNotice l c e d) := by
  simp [State.besides]
theorem besides_deviceNotice (s : State) (c : NoticeCondition) (e : Edge) (d : Detail) : s.besides (s.deviceNotice c e d) := by
  simp [State.besides]
theorem besides_levelNotice (s : State) (l : LaneId) (v : LaneLevel) : s.besides (s.levelNotice l v) := by simp [State.besides]
theorem besides_files (s : State) (fs : List Filing) : s.besides (s.files fs) := by
  refine foldl_besides (fun u f => ?_) fs s
  cases f with
  | reserve | item | completion => exact ⟨rfl, rfl⟩
  | lane l c e d => exact besides_ite _ (besides_ask u _ c e d) (besides_refl u)
  | device c e d => exact besides_ite _ (besides_ask u _ c e d) (besides_refl u)
theorem besides_grant (s : State) : s.besides s.grant := by simp [State.besides]
theorem besides_endItem (s : State) (l : LaneId) (i : Item) (o : ItemOutcome) (x : Fin 8) (r : Reason) (c : ConfirmResult)
    (f : Bool) : s.besides (s.endItem l i o x r c f) := by simp [State.besides]
theorem besides_closeConsignment (s : State) (l : LaneId) (c : CloseCause) : s.besides (s.closeConsignment l c) := by
  simp [State.besides]

/-! The Title Table and the claim list. -/

theorem besides_withClaims (s : State) (c : ClaimList) : s.besides (s.withClaims c) := by simp [State.besides]
theorem besides_withTable (s : State) (t : TitleTable) : s.besides (s.withTable t) := by simp [State.besides]
theorem besides_putRecord (s : State) (n : Nat) (r : TitleRecord) : s.besides (s.putRecord n r) := ⟨rfl, rfl⟩
theorem besides_markTaken (s : State) (e : ClaimEntry) : s.besides (s.markTaken e) := by
  unfold State.markTaken
  split
  · split
    · exact besides_putRecord s _ _
    · exact besides_refl s
  · exact besides_refl s
theorem besides_satisfyMonograph (s : State) (k : Key) (c : ClaimState) : s.besides (s.satisfyMonograph k c).1 := by
  cases c with
  | listed => exact besides_withClaims s _
  | taken | owed | none => exact besides_refl s

/-! Arrivals. -/

theorem besides_satisfy (a : ArrivalStep) (k : Key) (flagged : Bool) (m : Nat) : a.state.besides (a.satisfy k flagged m).state :=
  besides_withClaims _ _
theorem besides_raise (a : ArrivalStep) (k : Key) (q : Nat) (cause : ClaimCause) (r : Nat × Nat) :
    a.state.besides (a.raise k q cause r).state := besides_withClaims _ _
theorem besides_mark (k : Key) (q : Nat) (a : ArrivalStep) (x : Nat) : a.state.besides (ArrivalStep.mark k q a x).state := by
  unfold ArrivalStep.mark
  dsimp only
  split
  · exact besides_satisfy _ k true x
  · exact besides_refl _
/-- What every step of an arrival leaves alone, its steps in a row do. -/
theorem foldl_steps_besides {α : Type} {f : ArrivalStep → α → ArrivalStep}
    (step : ∀ (a : ArrivalStep) (x : α), a.state.besides (f a x).state) (xs : List α) (a : ArrivalStep) :
     a.state.besides (xs.foldl f a).state :=
  foldl_keeps (P := fun b => a.state.besides b.state) (fun b x h => besides_trans h (step b x)) xs a (besides_refl _)
theorem besides_slide (a : ArrivalStep) (k : Key) (q last : Nat) : a.state.besides (a.slide k q last).state := by
  unfold ArrivalStep.slide
  split
  · exact foldl_steps_besides (fun b r => besides_raise b k q .slidOut r) _ a
  · exact besides_refl _
theorem besides_commit (a : ArrivalStep) (k : Key) (q n span : Nat) : a.state.besides (a.commit k q n span).state := by
  have behind (xs : List Nat) := foldl_steps_besides (fun b m => besides_satisfy b k false m) xs a
  unfold ArrivalStep.commit
  dsimp only
  split
  · exact behind _
  · exact besides_trans (behind _) (besides_trans (besides_slide _ k q _) (besides_trans (foldl_steps_besides (besides_mark k q) _ _)
      (foldl_steps_besides (fun b r => besides_raise b k q .gap r) _ _)))
theorem besides_commitMonograph (s : State) (n : Nat) (r : TitleRecord) (m : MonographPart) : s.besides (s.commitMonograph n r m).1 := by
  unfold State.commitMonograph
  dsimp only
  split
  · exact besides_trans (besides_satisfyMonograph s r.key m.claim) (besides_putRecord _ _ _)
  · exact besides_putRecord s _ _
theorem besides_commitSerial (s : State) (slot : Nat) (r : TitleRecord) (p : SerialPart) (n span : Nat) :
    s.besides (s.commitSerial slot r p n span).1 :=
  besides_trans (besides_commit ⟨s, p, .none⟩ r.key r.q n span) (besides_putRecord _ _ _)
theorem besides_commitIf {s : State} {c : State × Indications} (normal available : Bool) (a : Answer) (h : s.besides c.1) :
    s.besides (s.commitIf normal available a c).1 := by
  unfold State.commitIf
  split
  · exact h
  · exact besides_refl s
theorem besides_serialArrival (s : State) (slot : Nat) (r : TitleRecord) (p : SerialPart) (e : Option Enumeration)
    (normal available : Bool) : s.besides (s.serialArrival slot r p e normal available).1 := by
  unfold State.serialArrival
  split
  · exact besides_refl s
  · dsimp only
    split
    · exact besides_refl s
    · exact besides_commitIf _ _ _ (besides_commitSerial s slot r p _ _)
theorem besides_arrival (s : State) (k : Key) (e : Option Enumeration) (normal available : Bool) :
    s.besides (s.arrival k e normal available).1 := by
  unfold State.arrival
  split
  · exact besides_refl s
  · split
    · exact besides_refl s
    · split
      · exact besides_commitIf _ _ _ (besides_commitMonograph s _ _ _)
      · exact besides_serialArrival s _ _ _ _ _ _

/-! Decisions. -/

theorem besides_decideKey (s : State) (k : Key) (e : Option Enumeration) (normal : Bool) : s.besides (s.decideKey k e normal).1 := by
  unfold State.decideKey
  generalize (if normal = true then s.decision.available else true) = available
  dsimp only
  split
  · exact besides_trans (besides_arrival s k e normal _) ⟨rfl, rfl⟩
  · exact besides_arrival s k e normal _
theorem besides_identify (s : State) (l : LaneId) (is : List Ident) : s.besides (s.identify l is).1 := by
  unfold State.identify
  split
  · exact besides_refl s
  · exact besides_refl s
  · exact besides_decideKey s _ _ _
theorem besides_openConsignment (s : State) (l : LaneId) (c : SlipContent) : s.besides (s.openConsignment l c).1 := by
  unfold State.openConsignment
  split
  · exact ⟨rfl, rfl⟩
  · exact besides_refl s
theorem besides_countMember (s : State) (l : LaneId) (number : Option Nat) (normal : Bool) (r : Reason) :
    s.besides (s.countMember l number normal r) := by
  unfold State.countMember
  split
  · exact besides_refl s
  · exact besides_ite _ ⟨rfl, rfl⟩ (besides_refl s)
theorem besides_slipAction (s : State) (l : LaneId) (r : Reason) (c : SlipContent) : s.besides (s.slipAction l r c).1 := by
  unfold State.slipAction
  split
  · exact besides_trans (besides_closeConsignment s l _) (besides_openConsignment _ l c)
  · split
    · exact ⟨rfl, rfl⟩
    · exact besides_closeConsignment s l _
  · exact besides_refl s
theorem besides_informConsignment (s : State) (l : LaneId) (number : Option Nat) (d : Draft) :
    s.besides (s.informConsignment l number d).1 := by
  unfold State.informConsignment
  dsimp only
  split
  · exact besides_trans (besides_countMember s l _ _ _) (besides_slipAction _ l _ _)
  · exact besides_countMember s l _ _ _
theorem besides_exhaustion (s : State) (l : LaneId) (sq : Seq) : s.besides (s.exhaustion l sq) :=
  besides_ite _ (besides_refl s) (besides_trans (t := { s with decision := { s.decision with exhaustNotice := true } }) ⟨rfl, rfl⟩
    (besides_deviceNotice _ _ _ _))

/-! The table engine. -/

theorem besides_goOn (s : State) (e : EngineContext) : s.besides (s.goOn e) := besides_ite _ ⟨rfl, rfl⟩ ⟨rfl, rfl⟩
theorem besides_accept (s : State) (op : Operation) (start : Nat) : s.besides (s.accept op start).1 := by
  unfold State.accept
  split
  · exact besides_refl s
  · split
    · exact besides_refl s
    · split
      · exact besides_refl s
      · exact besides_trans ⟨rfl, rfl⟩ (besides_goOn _ _)
theorem besides_endEngine (s : State) : s.besides s.endEngine := by
  unfold State.endEngine
  split
  · exact besides_refl s
  · exact ⟨rfl, rfl⟩
theorem besides_examineFind (s : State) (e : EngineContext) (f : FindFields) : s.besides (s.examineFind e f) := by
  unfold State.examineFind
  split
  · exact besides_goOn s _
  · exact besides_ite _ ⟨rfl, rfl⟩ (besides_goOn s _)
theorem besides_sweepMonograph (s : State) (e : EngineContext) (r : TitleRecord) (m : MonographPart) :
    s.besides (s.sweepMonograph e r m).1 := besides_trans (besides_withClaims s _) (besides_putRecord _ _ _)
theorem besides_sweepSerial (s : State) (e : EngineContext) (r : TitleRecord) (p : SerialPart) : s.besides (s.sweepSerial e r p).1 := by
  refine besides_trans ?_ (besides_putRecord _ _ _)
  exact foldl_keeps (P := fun a : ArrivalStep × EngineContext => s.besides a.1.state)
    (fun a x h => besides_trans h (besides_raise a.1 r.key r.q .overdue x)) _ (⟨s, p, .none⟩, e) (besides_refl s)
theorem besides_examineSweep (s : State) (e : EngineContext) : s.besides (s.examineSweep e) := by
  unfold State.examineSweep
  split
  · exact besides_goOn s _
  · refine besides_trans ?_ (besides_goOn _ _)
    split
    · split
      · exact besides_sweepMonograph s e _ _
      · exact besides_refl s
    · split
      · exact besides_sweepSerial s e _ _
      · exact besides_refl s
theorem besides_examinePurge (s : State) (e : EngineContext) : s.besides (s.examinePurge e) := by
  unfold State.examinePurge
  split
  · exact besides_goOn s _
  · exact besides_ite _ (besides_trans (besides_withTable s _) (besides_goOn _ _)) (besides_goOn s _)

/-! Commands of the device, the table, the claim list and the engine. -/

theorem besides_withKey {s : State} {act : Key → State × ReplyBody} (k : KeyText) (h : ∀ v, s.besides (act v).1) :
    s.besides (s.withKey k act).1 := by
  unfold State.withKey
  split
  · exact h _
  · exact besides_refl s
theorem besides_runAnnounceTitle (s : State) (f : AnnounceFields) : s.besides (s.runAnnounceTitle f).1 := by
  refine besides_withKey _ fun k => ?_
  dsimp only
  split
  · exact besides_refl s
  · split
    · exact besides_trans (besides_putRecord s _ _) (besides_withClaims _ _)
    · split
      · exact besides_withTable s _
      · exact besides_refl s
theorem besides_settleAmended (s : State) (n : Nat) (r : TitleRecord) : s.besides (s.settleAmended n r).1 := by
  unfold State.settleAmended
  split
  · split
    · split
      · exact besides_trans (besides_satisfyMonograph s _ _) (besides_putRecord _ _ _)
      · exact besides_putRecord s _ _
    · exact besides_putRecord s _ _
  · exact besides_putRecord s _ _
theorem besides_runAmendTitle (s : State) (f : AmendFields) : s.besides (s.runAmendTitle f).1 := by
  refine besides_withKey _ fun k => ?_
  split
  · exact besides_refl s
  · split
    · exact besides_refl s
    · split
      · exact besides_refl s
      · split
        · exact besides_refl s
        · exact besides_settleAmended s _ _
theorem besides_runWithdrawTitle (s : State) (k : KeyText) : s.besides (s.runWithdrawTitle k).1 := by
  refine besides_withKey _ fun k => ?_
  split
  · exact besides_refl s
  · split
    · exact besides_refl s
    · exact besides_trans (besides_putRecord s _ _) (besides_withClaims _ _)
theorem besides_runReadTitle (s : State) (k : KeyText) : s.besides (s.runReadTitle k).1 := by
  refine besides_withKey _ fun k => ?_
  split <;> exact besides_refl s
theorem besides_runSetRun (s : State) (f : SetRunFields) : s.besides (s.runSetRun f).1 := by
  refine besides_withKey _ fun k => ?_
  split
  · exact besides_refl s
  · split
    · exact besides_refl s
    · split
      · exact besides_refl s
      · split
        · exact besides_refl s
        · exact besides_putRecord s _ _
theorem besides_runListTitles (s : State) (f : ListFields) : s.besides (s.runListTitles f).1 := by
  unfold State.runListTitles
  split <;> exact besides_refl s
theorem besides_runTakeClaims (s : State) (n : Half) : s.besides (s.runTakeClaims n).1 := by
  unfold State.runTakeClaims
  split
  · exact besides_refl s
  · exact besides_trans (foldl_besides besides_markTaken _ s) (besides_withClaims _ _)
theorem besides_runSetNotices (s : State) (ps : List EnablePair) : s.besides (s.runSetNotices ps).1 := by
  unfold State.runSetNotices
  split <;> exact ⟨rfl, rfl⟩
theorem besides_runAbort (s : State) : s.besides s.runAbort.1 := by
  unfold State.runAbort
  split <;> exact ⟨rfl, rfl⟩
theorem besides_runSetAccessionBase (s : State) (b : Quad) : s.besides (s.runSetAccessionBase b).1 := by
  unfold State.runSetAccessionBase
  split
  · exact besides_refl s
  · split <;> exact ⟨rfl, rfl⟩
theorem besides_runSetSteering (s : State) (f : SteeringFields) : s.besides (s.runSetSteering f).1 := by
  unfold State.runSetSteering
  split
  · exact besides_refl s
  · split <;> exact ⟨rfl, rfl⟩
theorem besides_withLane {s : State} {act : LaneId → State × ReplyBody} (b : Byte) (h : ∀ l, s.besides (act l).1) :
    s.besides (s.withLane b act).1 := by
  unfold State.withLane
  split
  · exact h _
  · exact besides_refl s
theorem besides_runCloseConsignment (s : State) (b : Byte) : s.besides (s.runCloseConsignment b).1 := by
  refine besides_withLane _ fun l => ?_
  split
  · exact besides_refl s
  · exact besides_closeConsignment s l _

end Sys2Proof.Machine
end

section
/-! What every command keeps of the lanes, and that it completes (R2, R83, R85, R87, R101, R174). -/

namespace Sys2Proof.Machine

/-- The waiting commands stand, and every lane keeps its form and its ranges. -/
def State.keepsLanes (s t : State) : Prop := t.pending = s.pending ∧ ∀ l, (s.lane l).keeps (t.lane l)

theorem keepsLanes_refl (s : State) : s.keepsLanes s := ⟨rfl, fun _ => laneKeeps_refl _⟩
theorem keepsLanes_trans {s t u : State} (h : s.keepsLanes t) (h' : t.keepsLanes u) : s.keepsLanes u := by
  obtain ⟨pending, lanes⟩ := h
  obtain ⟨pending', lanes'⟩ := h'
  exact ⟨pending'.trans pending, fun l => laneKeeps_trans (lanes l) (lanes' l)⟩
theorem keepsLanes_ite {s t u : State} (c : Prop) [Decidable c] (ht : s.keepsLanes t) (hu : s.keepsLanes u) :
    s.keepsLanes (if c then t else u) := by
  split
  · exact ht
  · exact hu
theorem foldl_keepsLanes {α : Type} {f : State → α → State} (step : ∀ (s : State) (a : α), s.keepsLanes (f s a)) (xs : List α)
    (s : State) : s.keepsLanes (xs.foldl f s) :=
  foldl_keeps (P := s.keepsLanes) (fun u a h => keepsLanes_trans h (step u a)) xs s (keepsLanes_refl s)
theorem keepsLanes_of_besides {s t : State} (h : s.besides t) : s.keepsLanes t := by
  obtain ⟨pending, lanes⟩ := h
  refine ⟨pending, fun l => ?_⟩
  rw [lane_of_lanes lanes]
  exact laneKeeps_refl _
theorem keepsLanes_setLane {s : State} {l : LaneId} {w : Lane} (h : (s.lane l).keeps w) : s.keepsLanes (s.setLane l w) := by
  refine ⟨rfl, fun k => ?_⟩
  by_cases same : k = l
  · rw [same, lane_setLane_same]
    exact h
  · rw [lane_setLane_other s w same]
    exact laneKeeps_refl _
theorem keepsLanes_onLane {s : State} {l : LaneId} {f : Lane → Lane} (h : (s.lane l).keeps (f (s.lane l))) :
    s.keepsLanes (s.onLane l f) := keepsLanes_setLane h
/-- The waiting commands stand, and every lane but for the news on its way. -/
def State.spares (s t : State) : Prop := t.pending = s.pending ∧ ∀ l, ∃ n, t.lane l = { s.lane l with news := n }
theorem spares_of_besides {s t : State} (h : s.besides t) : s.spares t := ⟨h.1, fun l => ⟨(s.lane l).news, lane_of_lanes h.2 l⟩⟩
/-- R185: settling the report space sends news alone. -/
theorem spares_settled {s t : State} (h : s.besides t) : s.spares t.settleReport := by
  obtain ⟨pending, lanes⟩ := h
  exact ⟨by simpa using pending, fun l => ⟨_, lane_of_lanes lanes l ▸ lane_settleReport t l⟩⟩
theorem keeps_news (v : Lane) (n : List Bool) : v.keeps { v with news := n } := keeps_of_formed id id ⟨rfl, rfl⟩ id
theorem keepsLanes_of_spares {s t : State} (h : s.spares t) : s.keepsLanes t := by
  obtain ⟨pending, lanes⟩ := h
  refine ⟨pending, fun l => ?_⟩
  obtain ⟨n, lane⟩ := lanes l
  rw [lane]
  exact keeps_news _ n
/-- R87: one lane changed and its hold flag re-evaluated, with what is done beside the lanes in between. -/
theorem keepsLanes_reevaluated {s u : State} {l : LaneId} {w : Lane} (form : (s.lane l).keepsForm w) (h : (s.setLane l w).spares u) :
    s.keepsLanes (u.reevaluate l) := by
  obtain ⟨pending, lanes⟩ := h
  refine ⟨by simpa using pending, fun k => ?_⟩
  obtain ⟨n, lane⟩ := lanes k
  by_cases same : k = l
  · subst same
    rw [lane_reevaluate_following, lane, lane_setLane_same]
    exact keeps_following form
  · rw [lane_reevaluate_other u same, lane, lane_setLane_other s w same]
    exact keeps_news _ n
theorem setLane_besides {s t : State} (h : s.besides t) (l : LaneId) (w : Lane) : (s.setLane l w).besides (t.setLane l w) := by
  obtain ⟨pending, lanes⟩ := h
  exact ⟨pending, by simp only [State.setLane, lanes]⟩

/-! Records of a station. -/

theorem keepsLanes_counters (s : State) (l : LaneId) (f : LaneCounters → LaneCounters) : s.keepsLanes (s.onCounters l f) :=
  keepsLanes_onLane (keeps_of_formed id id ⟨rfl, rfl⟩ id)
theorem keepsLanes_send (s : State) (l : LaneId) (r : LaneOut) : s.keepsLanes (s.send l r) := keepsLanes_onLane (keeps_produce _ r)
theorem keepsLanes_noteBelt (s : State) (l : LaneId) (b : Belt) (d : Diverter) : s.keepsLanes (s.noteBelt l b d) :=
  keepsLanes_onLane (keeps_of_formed id id ⟨rfl, rfl⟩ id)
theorem keepsLanes_restartSilence (s : State) (l : LaneId) : s.keepsLanes (s.restartSilence l) :=
  keepsLanes_onLane (keeps_of_formed id id ⟨rfl, rfl⟩ id)
theorem keepsLanes_feedTest (s : State) (l : LaneId) : s.keepsLanes (s.feedTest l) := by
  refine keepsLanes_onLane ?_
  split
  · exact keeps_testItems _ _
  · exact laneKeeps_refl _
theorem keepsLanes_reportOf (s : State) (l : LaneId) (r : StationRecord) : s.keepsLanes (s.reportOf l r) := by
  cases r with
  | heartbeat b d => exact keepsLanes_noteBelt s l b d
  | itemBegin | observation | itemEnd | atGate | confirm => exact keepsLanes_refl s
theorem keepsLanes_echo (s : State) (l : LaneId) (r : StationRecord) : s.keepsLanes (s.echo l r) :=
  keepsLanes_trans (keepsLanes_onLane (keeps_of_formed id id ⟨rfl, rfl⟩ id)) (keepsLanes_send _ l _)
/-- R66: the entry into ACTIVE. -/
theorem keepsLanes_enterActive (s : State) (l : LaneId) : s.keepsLanes (s.enterActive l) := by
  have entered : (s.lane l).keepsForm
      { s.lane l with state := .active, sync := true, silenceTimer := some (s.lane l).config.silence } := by
    refine ⟨fun wf => ?_, id⟩
    obtain ⟨⟨⟨-, rest⟩, sends⟩, -⟩ := (wf_iff_formed _).mp wf
    exact ⟨⟨fun out => by simp at out, rest⟩, sends⟩
  exact keepsLanes_reevaluated entered (spares_of_besides (besides_laneNotice _ l _ _ _))
theorem keepsLanes_takeRecord (s : State) (l : LaneId) (r : StationRecord) {act : State → State}
    (h : ∀ u : State, u.keepsLanes (act u)) : s.keepsLanes (s.takeRecord l r act) :=
  keepsLanes_ite _ (keepsLanes_trans (keepsLanes_reportOf s l r) (keepsLanes_echo _ l r))
    (keepsLanes_trans (h s) (keepsLanes_feedTest _ l))
/-- R66 to R68: a lane keeps its form over a station record when it does over what it does with the record. -/
theorem keepsLanes_receive (s : State) (l : LaneId) (r : StationRecord) {act : State → State} (h : ∀ u : State, u.keepsLanes (act u)) :
    s.keepsLanes (s.receive l r act) := by
  have stale (u : State) : u.keepsLanes (u.countStale l) := keepsLanes_counters u l _
  have error : s.keepsLanes (s.countLinkError l) := keepsLanes_counters s l _
  unfold State.receive
  split
  case h_1 => exact keepsLanes_refl s
  case h_2 =>
    refine keepsLanes_ite _ error ?_
    cases r with
    | heartbeat b d => exact keepsLanes_noteBelt s l b d
    | itemBegin | observation | itemEnd | atGate | confirm => exact stale s
  case h_3 => exact keepsLanes_ite _ error (keepsLanes_trans (keepsLanes_restartSilence s l) (keepsLanes_takeRecord _ l r h))
  case h_4 =>
    have counted := keepsLanes_trans (stale s) (keepsLanes_restartSilence _ l)
    exact keepsLanes_ite _ error (keepsLanes_ite _ (keepsLanes_trans (keepsLanes_enterActive s l) (keepsLanes_takeRecord _ l r h))
      (keepsLanes_ite _ (keepsLanes_trans counted (keepsLanes_echo _ l r)) counted))

/-! Violations and admissions. -/

/-- R73: a violation leaves a lane without items, STOPPED and holding. -/
theorem keepsLanes_violate (s : State) (l : LaneId) (c : ViolationCause) (t : RecordType) (q : Seq) : s.keepsLanes (s.violate l c t q) := by
  rw [violate_eq, State.stoppedBy]
  refine keepsLanes_trans (t := s.setConsignment l none) (keepsLanes_of_besides ⟨rfl, rfl⟩)
    (keepsLanes_trans (keepsLanes_setLane ?_) (keepsLanes_of_besides (besides_files _ _)))
  exact keeps_toldHold (keepsForm_emptied rfl rfl rfl ⟨rfl, .inl rfl⟩ id) (by simp)
theorem keepsLanes_misdirected (s : State) (l : LaneId) (t : RecordType) (sq : Seq) : s.keepsLanes (s.misdirected l t sq) :=
  keepsLanes_ite _ (keepsLanes_counters s l _) (keepsLanes_violate s l _ _ _)
theorem besides_reserving (s : State) (l : LaneId) : s.besides (s.reserving l) := by
  rw [reserving_eq]
  exact ⟨rfl, rfl⟩
/-- R86: an admission by a lane that does not hold. -/
theorem keepsLanes_admitItem {s : State} {l : LaneId} {sq : Seq} (hold : (s.lane l).hold = false)
    (reading : (s.lane l).readingItem = none) (expected : ∀ e, (s.lane l).expected = some e → e = sq) :
    s.keepsLanes (s.admitItem l sq) := by
  have admitted (number : Option Nat) (reserved : Bool) := keepsForm_admitting l number reserved hold reading expected
  rcases slots : accounts (s.lane l).mode with _ | _
  · have admits := admitItem_unaccounted (s := s) (l := l) slots sq
    rw [setLane_self] at admits
    rw [admits]
    exact keepsLanes_reevaluated (admitted _ _) (spares_of_besides (besides_levelNotice _ l _))
  · have admits := admitItem_accounted (s := s) (l := l) slots sq
    rw [setLane_self] at admits
    rw [admits]
    exact keepsLanes_reevaluated (admitted _ _)
      (spares_settled (besides_trans (setLane_besides (besides_reserving s l) l _) (besides_levelNotice _ l _)))
theorem keepsLanes_refuseItem {s : State} {l : LaneId} {sq : Seq} (expected : ∀ e, (s.lane l).expected = some e → e = sq) :
    s.keepsLanes (s.refuseItem l sq) := by
  have refuses := refuseItem_setLane s l (s.lane l) sq
  rw [setLane_self] at refuses
  rw [refuses]
  exact keepsLanes_setLane (keeps_refusing expected)
theorem keepsLanes_beginItem (s : State) (l : LaneId) (sq : Seq) : s.keepsLanes (s.beginItem l sq) := by
  unfold State.beginItem
  dsimp only
  split
  · exact keepsLanes_violate s l _ _ _
  · next reading =>
    split
    · exact keepsLanes_violate s l _ _ _
    · next unbroken =>
      have expected (e : Seq) (expects : (s.lane l).expected = some e) : e = sq := by
        by_contra other
        exact unbroken (by simp [expects, other])
      split
      · exact keepsLanes_refuseItem expected
      · next unheld =>
        refine keepsLanes_admitItem ?_ (by simpa using reading) expected
        simpa using fun hold => unheld (.inl hold)

/-! Readings and decisions. -/

theorem keepsLanes_onReading {s : State} {l : LaneId} {f : Item → Item} (sq : ∀ i, (f i).sq = i.sq)
    (state : ∀ i, i.state = .reading → (f i).state ≠ .confirming) : s.keepsLanes (s.onLane l fun v => v.onReading f) :=
  keepsLanes_onLane (keeps_onReading (s.lane l).test (s.lane l).counters sq state id)
theorem join_fields (i : Item) (o : Observation) : (i.join o).sq = i.sq ∧ (i.join o).state = i.state := by
  unfold Item.join
  split <;> exact ⟨rfl, rfl⟩
theorem keepsLanes_joinReading (s : State) (l : LaneId) (o : Observation) : s.keepsLanes (s.joinReading l o) := by
  refine keepsLanes_onReading (fun i => (join_fields i o).1) fun i reading => ?_
  rw [(join_fields i o).2, reading]
  exact nofun
theorem keepsLanes_observe (s : State) (l : LaneId) (sq : Seq) (o : Observation) : s.keepsLanes (s.observe l sq o) :=
  keepsLanes_ite _ (keepsLanes_joinReading s l o) (keepsLanes_misdirected s l _ _)
theorem keepsLanes_raiseDecision (s : State) (l : LaneId) (sq : Seq) (n : Nat) (d : Draft) (a : SlipAction) :
    s.keepsLanes (s.raiseDecision l sq n d a) := by
  unfold State.raiseDecision
  split
  · exact keepsLanes_of_besides (besides_laneNotice s l _ _ _)
  · split
    · exact keepsLanes_trans (keepsLanes_counters s l _) (keepsLanes_of_besides (besides_laneNotice _ l _ _ _))
    · exact keepsLanes_of_besides (besides_exhaustion s l sq)
    · exact keepsLanes_refl s
/-- R108: the decision of an item, its lane otherwise as it was. -/
theorem keepsLanes_decideItem (s : State) (l : LaneId) (i : Item) : s.keepsLanes (s.decideItem l i) := by
  have settles (u : State) (os : List HeldObservation) (d : Decision) : u.keepsLanes (u.onLane l fun v =>
      { v.onReading fun i => i.settled os d with counters := { v.counters with decided := bump v.counters.decided } }) :=
    keepsLanes_onLane (keeps_onReading (u.lane l).test _ (fun _ => rfl) (fun _ _ => nofun) id)
  unfold State.decideItem
  exact keepsLanes_trans (keepsLanes_of_besides (besides_identify s l _)) (keepsLanes_trans
    (keepsLanes_of_besides (besides_informConsignment _ l _ _)) (keepsLanes_trans (settles _ _ _) (keepsLanes_trans
      (keepsLanes_raiseDecision _ l _ _ _ _) (keepsLanes_of_spares (spares_settled (besides_refl _))))))
/-- R176 to R178: the comparison of a TEST lane. -/
theorem keepsLanes_testItemEnd (s : State) (l : LaneId) (i : Item) : s.keepsLanes (s.testItemEnd l i) := by
  have compared : s.keepsLanes (s.onLane l fun v =>
      { v.onReading fun j => j.settled (i.observations.map HeldObservation.judged) (testDecision (s.lane l).config.outlets) with
        test := ((s.lane l).test.take (offered (identsOf (i.observations.map HeldObservation.judged)))).1
        counters := { v.counters with decided := bump v.counters.decided } }) :=
    keepsLanes_onLane (keeps_onReading _ _ (fun _ => rfl) (fun _ _ => nofun) (testUnitWf_take _))
  exact keepsLanes_ite _ compared (keepsLanes_trans compared (keepsLanes_of_besides (besides_laneNotice _ l _ _ _)))
theorem keepsLanes_endReading (s : State) (l : LaneId) (o : Option Observation) : s.keepsLanes (s.endReading l o) := by
  have decided (u : State) : u.keepsLanes (match (u.lane l).readingItem with
      | some i => if (u.lane l).mode = .test then u.testItemEnd l i else u.decideItem l i
      | none => u) := by
    split
    · exact keepsLanes_ite _ (keepsLanes_testItemEnd u l _) (keepsLanes_decideItem u l _)
    · exact keepsLanes_refl u
  cases o with
  | none => exact decided s
  | some o => exact keepsLanes_trans (keepsLanes_joinReading s l o) (decided _)
theorem keepsLanes_endItemReading (s : State) (l : LaneId) (sq : Seq) (o : Option Observation) : s.keepsLanes (s.endItemReading l sq o) :=
  keepsLanes_ite _ (keepsLanes_endReading s l o) (keepsLanes_misdirected s l _ _)

/-! The gate. -/

theorem keepsLanes_closeWindow (s : State) (l : LaneId) (r : ConfirmResult) : s.keepsLanes (s.closeWindow l r) := by
  rw [closeWindow_eq]
  exact keepsLanes_trans (keepsLanes_setLane (keeps_windowClosed _ r)) (keepsLanes_of_besides (besides_files _ _))
theorem keepsLanes_sendRunOut (s : State) (l : LaneId) (sq : Seq) : s.keepsLanes (s.sendRunOut l sq) :=
  keepsLanes_trans (keepsLanes_counters s l _) (keepsLanes_send _ l _)
theorem keepsLanes_phantom (s : State) (l : LaneId) (sq : Seq) : s.keepsLanes (s.phantom l sq) :=
  keepsLanes_trans (keepsLanes_closeWindow s l _) (keepsLanes_trans (keepsLanes_counters _ l _)
    (keepsLanes_trans (keepsLanes_sendRunOut _ l _) (keepsLanes_of_besides (besides_laneNotice _ l _ _ _))))
theorem keepsLanes_confirmItem (s : State) (l : LaneId) (sq : Seq) (outlet : Byte) : s.keepsLanes (s.confirmItem l sq outlet) := by
  unfold State.confirmItem
  split
  · exact keepsLanes_counters s l _
  · exact keepsLanes_ite _ (keepsLanes_closeWindow s l _) (keepsLanes_counters s l _)


/-! The pairing of an AT GATE. -/

/-- One lane changed once more, behind what is done beside the lanes. -/
theorem besides_onLane {s u : State} {l : LaneId} {w : Lane} (h : (s.setLane l w).besides u) (f : Lane → Lane) :
    (s.setLane l (f w)).besides (u.onLane l f) := by
  obtain ⟨pending, lanes⟩ := h
  refine ⟨pending, ?_⟩
  have lane : u.lane l = w := by rw [lane_of_lanes lanes, lane_setLane_same]
  have again : (s.setLane l w).setLane l (f w) = s.setLane l (f w) := setLane_setLane s l w (f w)
  rw [← again]
  simp only [State.onLane, State.setLane, lane, lanes]
/-- R94, R95, R102: the lane after its head was dealt with: a DIVERT sent, and maybe a confirm window opened. -/
def Lane.headed (v w : Lane) : Prop :=
  ∃ (c : LaneCounters) (r : LaneOut), w = ({ v with counters := c } : Lane).produce r ∨
    ∃ (i : Item) (x : Fin 8), w = (({ v with counters := c } : Lane).produce r).openWindow i x
theorem pairHead_headed (s : State) (l : LaneId) (i : Item) : ∃ w, (s.lane l).headed w ∧ (s.setLane l w).besides (s.pairHead l i) := by
  have counted (f : LaneCounters → LaneCounters) :
      (s.setLane l { s.lane l with counters := f (s.lane l).counters }).besides (s.onCounters l f) := besides_refl _
  unfold State.pairHead
  split
  · exact ⟨_, ⟨_, _, .inl rfl⟩, besides_trans (besides_onLane (besides_onLane (counted _) _) fun v => v.produce _)
      (besides_endItem _ l _ _ _ _ _ _)⟩
  · split
    · exact ⟨_, ⟨_, _, .inl rfl⟩, besides_trans (besides_onLane (counted _) fun v => v.produce _)
        (besides_endItem _ l _ _ _ _ _ _)⟩
    · unfold State.divertItem
      dsimp only
      split
      · exact ⟨_, ⟨_, _, .inr ⟨_, _, rfl⟩⟩,
          besides_onLane (besides_onLane (counted _) fun v => v.produce _) fun v => v.openWindow _ _⟩
      · exact ⟨_, ⟨_, _, .inr ⟨_, _, rfl⟩⟩,
          besides_onLane (besides_onLane (counted _) fun v => v.produce _) fun v => v.openWindow _ _⟩
/-- R99: a confirm window opens in a lane in service. -/
theorem formed_headed {v w : Lane} (h : v.headed w) (items : v.itemsFormed) (service : v.state ≠ .disabled ∧ v.state ≠ .stopped) :
    w.formed := by
  obtain ⟨c, r, rfl | ⟨i, x, rfl⟩⟩ := h
  · exact formed_produce (v := { v with counters := c }) r items
  · rw [openWindow_produce]
    obtain ⟨-, depth, depths, decided, confirming, -, sequence⟩ := items
    refine formed_produce r ⟨fun out => ?_, depth, depths, decided, confirming, ?_, sequence⟩
    · exact absurd out (not_or.mpr service)
    · simp [Lane.openWindow]
theorem inRange_headed {v w : Lane} (h : v.headed w) (range : v.inRange) : w.inRange := by
  obtain ⟨c, r, rfl | ⟨i, x, rfl⟩⟩ := h
  · exact inRange_produce (v := { v with counters := c }) r range
  · exact inRange_produce (v := { v with counters := c }) r range
/-- R93: the first item of the queue with the number named. -/
theorem split_of_holds {v : Lane} {sq : Seq} (h : v.holds sq = true) :
    ∃ ahead i rest, v.queue = ahead ++ i :: rest ∧ i.sq = sq ∧ ∀ j ∈ ahead, j.sq ≠ sq := by
  obtain ⟨i, found⟩ := Option.isSome_iff_exists.mp (List.find?_isSome.mpr (List.any_eq_true.mp h))
  obtain ⟨named, ahead, rest, queue, others⟩ := List.find?_eq_some_iff_append.mp found
  exact ⟨ahead, i, rest, queue, by simpa using named, fun j there => by simpa using others j there⟩
theorem itemsFormed_passed {v : Lane} {ahead rest : List Item} {i : Item} (queue : v.queue = ahead ++ i :: rest) (h : v.itemsFormed) :
    (v.passed ahead rest).itemsFormed := by
  have closed : (v.windowClosed .noConfirm).queue = (ahead ++ [i]) ++ rest := by
    rw [(windowClosed_fields v _).2.2, queue, List.append_assoc]
    rfl
  exact itemsFormed_cut (v := (v.windowClosed .noConfirm).countMissing ahead.length) (itemsFormed_windowClosed .noConfirm h) closed
theorem state_passed (v : Lane) (ahead rest : List Item) : (v.passed ahead rest).state = v.state := by
  rw [Lane.passed, windowClosed_form]
  rfl
theorem keepsLanes_pairGate {s : State} {l : LaneId} {sq : Seq} (h : (s.lane l).holds sq = true) : s.keepsLanes (s.pairGate l sq) := by
  obtain ⟨ahead, i, rest, queue, named, others⟩ := split_of_holds h
  rw [pairGate_eq queue named others]
  have passed := besides_files (s.setLane l ((s.lane l).passed ahead rest))
    (s.windowFilings l .noConfirm ++ (s.missingRecords l ahead).map .item)
  generalize (s.setLane l ((s.lane l).passed ahead rest)).files _ = u at passed ⊢
  have lane : u.lane l = (s.lane l).passed ahead rest := by rw [lane_of_lanes passed.2, lane_setLane_same]
  obtain ⟨w, headed, makes⟩ := pairHead_headed u l i
  rw [lane] at headed
  refine keepsLanes_reevaluated (w := w) ⟨fun wf => ?_, fun range => ?_⟩
    (spares_of_besides (besides_trans ?_ (besides_trans makes (besides_levelNotice _ l _))))
  · obtain ⟨⟨items, -⟩, -⟩ := (wf_iff_formed _).mp wf
    refine formed_headed headed (itemsFormed_passed queue items) ?_
    have some : (s.lane l).queue ≠ [] := by simp [queue]
    rw [state_passed]
    exact not_or.mp fun out => some (items.1 out).1
  · exact inRange_headed headed (inRange_windowClosed .noConfirm range)
  · have again := setLane_besides passed l w
    rwa [setLane_setLane] at again
theorem keepsLanes_gate (s : State) (l : LaneId) (sq : Seq) : s.keepsLanes (s.gate l sq) := by
  unfold State.gate
  dsimp only
  split
  · next names => exact keepsLanes_pairGate names
  · exact keepsLanes_ite _ (keepsLanes_counters s l _) (keepsLanes_ite _ (keepsLanes_phantom s l sq) (keepsLanes_violate s l _ _ _))

/-! Events of the lane itself. -/

theorem keepsLanes_silenceExpired (s : State) (l : LaneId) : s.keepsLanes (s.silenceExpired l) := by
  unfold State.silenceExpired
  split
  · have silent : (s.lane l).keepsForm ({ s.lane l with state := .silent } : Lane).heard := by
      refine ⟨fun wf => ?_, id⟩
      obtain ⟨⟨⟨-, rest⟩, sends⟩, -⟩ := (wf_iff_formed _).mp wf
      exact ⟨⟨fun out => by simp [Lane.heard] at out, rest⟩, sends⟩
    refine keepsLanes_reevaluated silent (spares_of_besides (besides_trans ?_ (besides_laneNotice _ l _ _ _)))
    exact besides_onLane (besides_refl _) _
  · exact keepsLanes_restartSilence s l
  · exact keepsLanes_refl s
theorem keepsLanes_takeNews (s : State) (l : LaneId) : s.keepsLanes (s.takeNews l) := by
  unfold State.takeNews
  split
  · exact keepsLanes_refl s
  · next b t _ =>
    have told : (s.lane l).keepsForm { s.lane l with noSpace := b, news := t } := ⟨fun wf => ((wf_iff_formed _).mp wf).1, id⟩
    exact keepsLanes_reevaluated told (spares_of_besides (besides_refl _))

/-! Commands of the lanes. -/

theorem keepsLanes_withLane {s : State} {act : LaneId → State × ReplyBody} (b : Byte) (h : ∀ l, s.keepsLanes (act l).1) :
    s.keepsLanes (s.withLane b act).1 := by
  unfold State.withLane
  split
  · exact h _
  · exact keepsLanes_refl s
theorem keepsLanes_runConfigureLane (s : State) (f : ConfigureFields) : s.keepsLanes (s.runConfigureLane f).1 := by
  refine keepsLanes_withLane _ fun l => ?_
  dsimp only
  split
  · exact keepsLanes_refl s
  · split
    · exact keepsLanes_refl s
    · next accepted => exact keepsLanes_onLane (keeps_configured _ fun service => by simpa [service] using accepted)
theorem keepsLanes_runEnableLane (s : State) (b : Byte) : s.keepsLanes (s.runEnableLane b).1 := by
  refine keepsLanes_withLane _ fun l => ?_
  dsimp only
  split
  · exact keepsLanes_refl s
  · next disabled =>
    split
    · exact keepsLanes_refl s
    · exact keepsLanes_trans (keepsLanes_onLane (keeps_enable (not_not.mp disabled)))
        (keepsLanes_of_besides (besides_laneNotice _ l _ _ _))
theorem keepsLanes_disableLane (s : State) (l : LaneId) (r : Reason) : s.keepsLanes (s.disableLane l r) := by
  rw [disableLane_eq]
  exact keepsLanes_trans (t := s.setConsignment l none) (keepsLanes_of_besides ⟨rfl, rfl⟩)
    (keepsLanes_trans (keepsLanes_setLane (keeps_disabledAs _)) (keepsLanes_of_besides (besides_files _ _)))
theorem keepsLanes_runDisableLane (s : State) (b : Byte) : s.keepsLanes (s.runDisableLane b).1 := by
  refine keepsLanes_withLane _ fun l => ?_
  dsimp only
  split
  · exact keepsLanes_refl s
  · exact keepsLanes_disableLane s l _
theorem keepsLanes_clearFault (s : State) (l : LaneId) : s.keepsLanes (s.clearFault l) := by
  have cleared : s.keepsLanes (s.onLane l fun v => { v with faults := 0, faultLevel := false }) :=
    keepsLanes_onLane (keeps_of_formed id id ⟨rfl, rfl⟩ fun ⟨test, _⟩ => ⟨test, Nat.zero_le _⟩)
  exact keepsLanes_ite _ (keepsLanes_trans cleared (keepsLanes_of_besides (besides_laneNotice _ l _ _ _))) cleared
theorem keepsLanes_runSetLaneMode (s : State) (f : LaneModeFields) : s.keepsLanes (s.runSetLaneMode f).1 := by
  refine keepsLanes_withLane _ fun l => ?_
  split
  · next disabled => exact keepsLanes_onLane (keeps_mode _ disabled)
  · exact keepsLanes_refl s
theorem keepsLanes_runInjectError (s : State) (b : Byte) : s.keepsLanes (s.runInjectError b).1 := by
  refine keepsLanes_withLane _ fun l => ?_
  split
  · exact keepsLanes_onLane (keeps_of_formed id id ⟨rfl, rfl⟩ id)
  · exact keepsLanes_refl s

/-! Starting. -/

/-- R82: a lane restarted is out of service when it takes its RESTART values. -/
theorem keepsLanes_restartLane (s : State) (l : LaneId) : s.keepsLanes (s.restartLane l) := by
  have begins (u : State) (disabled : (u.lane l).state = .disabled) :
      u.keepsLanes (((u.onLane l Lane.restarted).clearStray l).clearFault l) :=
    keepsLanes_trans (keepsLanes_onLane (keeps_restarted disabled))
      (keepsLanes_trans (t := (u.onLane l Lane.restarted).clearStray l) (keepsLanes_of_besides ⟨rfl, rfl⟩) (keepsLanes_clearFault _ l))
  unfold State.restartLane
  dsimp only
  split
  · next disabled => exact begins s disabled
  · refine keepsLanes_trans (keepsLanes_disableLane s l .restarted) (begins _ ?_)
    rw [disableLane_eq, lane_files, lane_setLane_same, state_toldHold]
    rfl
theorem keepsLanes_runRestart (s : State) : s.keepsLanes s.runRestart.1 := by
  have restarted := foldl_keepsLanes keepsLanes_restartLane allLanes s
  unfold State.runRestart
  generalize allLanes.foldl State.restartLane s = u at *
  exact keepsLanes_trans restarted (keepsLanes_of_besides (besides_trans (besides_endEngine u) (besides_ask _ _ _ _ _)))
/-- R192: every lane at its power-on values, what is being sent apart. -/
theorem keepsLanes_of_reset {s t : State} (pending : t.pending = s.pending)
    (lanes : ∀ l, ∃ sending, t.lane l = { Lane.reset with sending := sending }) : s.keepsLanes t := by
  refine ⟨pending, fun l => ?_⟩
  obtain ⟨sending, lane⟩ := lanes l
  rw [lane]
  exact keeps_cleared _ sending

/-! The 60 commands. -/

/-- A command completes, and every lane keeps its form and its ranges. -/
def State.completes (s : State) (r : Result) : Prop := ∃ t, r = .next t ∧ s.keepsLanes t
theorem completes_done {s t : State} (h : s.keepsLanes t) : s.completes t.done :=
  ⟨t.grant, rfl, keepsLanes_trans h (keepsLanes_of_besides (besides_grant t))⟩
theorem done_completes (s : State) : s.completes s.done := completes_done (keepsLanes_refl s)
theorem completes_of_besides {s t : State} (h : s.besides t) : s.completes t.done := completes_done (keepsLanes_of_besides h)
theorem completes_takeFrame {s : State} {run : State → State × ReplyBody} (code tag : Byte) (h : ∀ u : State, u.keepsLanes (run u).1) :
    s.completes (s.takeFrame code tag run) := by
  have counted : s.keepsLanes (s.onLink .countFrame) := keepsLanes_of_besides ⟨rfl, rfl⟩
  unfold State.takeFrame
  dsimp only
  split
  · exact ⟨_, rfl, keepsLanes_of_besides ⟨rfl, rfl⟩⟩
  · exact completes_done (keepsLanes_trans counted (keepsLanes_trans (h _) (keepsLanes_of_besides ⟨rfl, rfl⟩)))
theorem completes_command {α : Type} {s : State} {run : α → State → State × ReplyBody} (code tag : Byte) (body : Body α)
    (h : ∀ a (u : State), u.keepsLanes (run a u).1) : s.completes (s.command code tag body run) := by
  refine completes_takeFrame code tag fun u => ?_
  cases body with
  | malformed => exact keepsLanes_refl u
  | fields a => exact h a u
theorem completes_command_besides {α : Type} {s : State} {run : α → State → State × ReplyBody} (code tag : Byte) (body : Body α)
    (h : ∀ a (u : State), u.besides (run a u).1) : s.completes (s.command code tag body run) :=
  completes_command code tag body fun a u => keepsLanes_of_besides (h a u)
theorem completes_receive {s : State} {act : State → State} (l : LaneId) (r : StationRecord) (h : ∀ u : State, u.keepsLanes (act u)) :
    s.completes (s.receive l r act).done := completes_done (keepsLanes_receive s l r h)

/-- Every one of the 60 commands completes, and keeps the lanes and the waiting commands. -/
theorem exec_completes (c : Instr) (s : State) : s.completes (exec c s) := by
  cases c with
  | powerOn =>
    have reset : s.keepsLanes s.poweredOn := keepsLanes_of_reset rfl fun l => ⟨none, lane_reset l⟩
    exact completes_done (keepsLanes_trans reset (keepsLanes_of_besides (besides_ask _ _ _ _ _)))
  | clear =>
    have cleared (u : State) : u.keepsLanes u.cleared := keepsLanes_of_reset rfl fun l =>
      ⟨(u.lane l).sending, by simp [State.lane, State.cleared]⟩
    simp only [exec, execClear]
    exact completes_command _ _ _ fun _ u => keepsLanes_trans (cleared u) (keepsLanes_of_besides (besides_ask _ _ _ _ _))
  | restart =>
    simp only [exec, execRestart]
    exact completes_command _ _ _ fun _ u => keepsLanes_runRestart u
  | hostLengthError | hostCrcError => exact completes_of_besides ⟨rfl, rfl⟩
  | commandDropped =>
    simp only [exec, execCommandDropped]
    split
    · exact completes_of_besides ⟨rfl, rfl⟩
    · exact done_completes s
  | unknownCommand code tag =>
    simp only [exec, execUnknownCommand]
    split
    · exact done_completes s
    · exact completes_takeFrame code tag fun u => keepsLanes_of_besides ⟨rfl, rfl⟩
  | replySent =>
    simp only [exec, execReplySent]
    split
    · exact completes_of_besides ⟨rfl, rfl⟩
    · exact done_completes s
    · exact done_completes s
  | batchSent =>
    simp only [exec, execBatchSent]
    split
    · exact completes_done (keepsLanes_of_spares (spares_settled ⟨rfl, rfl⟩))
    · exact done_completes s
    · exact done_completes s
  | holdTimerExpiry =>
    simp only [exec, execHoldTimerExpiry]
    split
    · exact completes_of_besides ⟨rfl, rfl⟩
    · exact done_completes s
  | identify | readCounters | setReportHold | holdReports | releaseReports | flushReports | setDay | setGrace | readAccession
  | readClaimStatus | engineStatus =>
    simp only [exec, execIdentify, execReadCounters, execSetReportHold, execHoldReports, execReleaseReports, execFlushReports, execSetDay,
      execSetGrace, execReadAccession, execReadClaimStatus, execEngineStatus]
    exact completes_command_besides _ _ _ fun _ _ => ⟨rfl, rfl⟩
  | setNotices =>
    simp only [exec, execSetNotices]
    exact completes_command_besides _ _ _ fun ps u => besides_runSetNotices u ps
  | announceTitle =>
    simp only [exec, execAnnounceTitle]
    exact completes_command_besides _ _ _ fun f u => besides_runAnnounceTitle u f
  | amendTitle =>
    simp only [exec, execAmendTitle]
    exact completes_command_besides _ _ _ fun f u => besides_runAmendTitle u f
  | withdrawTitle =>
    simp only [exec, execWithdrawTitle]
    exact completes_command_besides _ _ _ fun k u => besides_runWithdrawTitle u k
  | readTitle =>
    simp only [exec, execReadTitle]
    exact completes_command_besides _ _ _ fun k u => besides_runReadTitle u k
  | listTitles =>
    simp only [exec, execListTitles]
    exact completes_command_besides _ _ _ fun f u => besides_runListTitles u f
  | setRun =>
    simp only [exec, execSetRun]
    exact completes_command_besides _ _ _ fun f u => besides_runSetRun u f
  | takeClaims =>
    simp only [exec, execTakeClaims]
    exact completes_command_besides _ _ _ fun n u => besides_runTakeClaims u n
  | setAccessionBase =>
    simp only [exec, execSetAccessionBase]
    exact completes_command_besides _ _ _ fun b u => besides_runSetAccessionBase u b
  | setSteering =>
    simp only [exec, execSetSteering]
    exact completes_command_besides _ _ _ fun f u => besides_runSetSteering u f
  | closeConsignment =>
    simp only [exec, execCloseConsignment]
    exact completes_command_besides _ _ _ fun b u => besides_runCloseConsignment u b
  | readLane | readTest | readConsignment =>
    simp only [exec, execReadLane, execReadTest, execReadConsignment]
    exact completes_command_besides _ _ _ fun b u => besides_withLane b fun _ => besides_refl u
  | find =>
    simp only [exec, execFind]
    refine completes_command_besides _ _ _ fun f u => ?_
    split
    · exact besides_refl u
    · exact besides_accept u _ _
  | sweep | purge =>
    simp only [exec, execSweep, execPurge]
    exact completes_command_besides _ _ _ fun _ u => besides_accept u _ _
  | abort =>
    simp only [exec, execAbort]
    exact completes_command_besides _ _ _ fun _ u => besides_runAbort u
  | findExamination =>
    simp only [exec, execFindExamination]
    split
    · split
      · exact completes_of_besides (besides_examineFind s _ _)
      · exact done_completes s
      · exact done_completes s
    · exact done_completes s
  | sweepExamination =>
    simp only [exec, execSweepExamination]
    split
    · split
      · exact completes_of_besides (besides_examineSweep s _)
      · exact done_completes s
      · exact done_completes s
    · exact done_completes s
  | purgeExamination =>
    simp only [exec, execPurgeExamination]
    split
    · split
      · exact completes_of_besides (besides_examinePurge s _)
      · exact done_completes s
      · exact done_completes s
    · exact done_completes s
  | configureLane =>
    simp only [exec, execConfigureLane]
    exact completes_command _ _ _ fun f u => keepsLanes_runConfigureLane u f
  | enableLane =>
    simp only [exec, execEnableLane]
    exact completes_command _ _ _ fun b u => keepsLanes_runEnableLane u b
  | disableLane =>
    simp only [exec, execDisableLane]
    exact completes_command _ _ _ fun b u => keepsLanes_runDisableLane u b
  | clearDiverterFault =>
    simp only [exec, execClearDiverterFault]
    exact completes_command _ _ _ fun b u => keepsLanes_withLane b fun l => keepsLanes_clearFault u l
  | setLaneMode =>
    simp only [exec, execSetLaneMode]
    exact completes_command _ _ _ fun f u => keepsLanes_runSetLaneMode u f
  | injectError =>
    simp only [exec, execInjectError]
    exact completes_command _ _ _ fun b u => keepsLanes_runInjectError u b
  | linkCheckFailure l | recordNotWellFormed l =>
    exact completes_done (keepsLanes_ite _ (keepsLanes_refl s) (keepsLanes_counters s l _))
  | heartbeat l b d => exact completes_receive l _ fun u => keepsLanes_noteBelt u l b d
  | itemBegin l sq => exact completes_receive l _ fun u => keepsLanes_beginItem u l sq
  | observation l sq o => exact completes_receive l _ fun u => keepsLanes_observe u l sq o
  | itemEnd l sq o => exact completes_receive l _ fun u => keepsLanes_endItemReading u l sq o
  | atGate l sq => exact completes_receive l _ fun u => keepsLanes_gate u l sq
  | confirm l sq x => exact completes_receive l _ fun u => keepsLanes_confirmItem u l sq x
  | silenceTimerExpiry l => exact completes_done (keepsLanes_silenceExpired s l)
  | confirmTimerExpiry l =>
    simp only [exec, execConfirmTimerExpiry]
    split
    · exact done_completes s
    · exact completes_done (keepsLanes_trans (keepsLanes_closeWindow s l _) (keepsLanes_feedTest _ l))
  | noReportSpaceNews l => exact completes_done (keepsLanes_takeNews s l)
  | laneRecordSent l => exact completes_done (keepsLanes_onLane (keeps_sent _))

/-- Settles O2: what completes keeps the waiting commands. -/
theorem everyCommandCompletes : Obligations.EveryCommandCompletes := by
  intro c s
  obtain ⟨t, completes, pending, -⟩ := exec_completes c s
  exact ⟨t, completes, pending⟩
/-- A step runs one command, or none. -/
theorem lane_keeps_of_step {s t : State} (h : step s = .next t) (l : LaneId) : (s.lane l).keeps (t.lane l) := by
  unfold step at h
  split at h
  · cases h
    exact laneKeeps_refl _
  · next c rest _ =>
    obtain ⟨u, completes, -, lanes⟩ := exec_completes c { s with pending := rest }
    obtain rfl : u = t := by simpa [completes] using h
    exact lanes l
/-- Settles O58: every step keeps each lane, its form and its ranges. -/
theorem lanesAreKept : Obligations.LanesAreKept :=
  ⟨fun _ _ wf h l => (lane_keeps_of_step h l).1 (wf l), fun _ _ range h l => (lane_keeps_of_step h l).2 (range l)⟩

end Sys2Proof.Machine
end

section
/-! The settling of the report space (R185, R186, R189). -/

namespace Sys2Proof.Machine

/-- R186: making everything due, spelled by whether anything stands filled. -/
theorem sendAll_eq_ite (r : ReportUnit) : r.sendAll =
    if r.filled ≠ [] then { r with sendPoint := some (r.filled.length - 1), holdTimer := none } else r := by
  unfold ReportUnit.sendAll
  cases h : r.filled with
  | nil => rfl
  | cons x xs => simp
/-- R185: the news put behind the news on its way to each lane, when there is news. -/
theorem tellLanes_ite (s : State) (no : Bool) (c : Prop) [Decidable c] : (if c then s else s.tellLanes no) =
    { s with lanes := Vector.ofFn fun l : LaneId => { s.lane l with news := (s.lane l).news ++ if c then [] else [no] } } := by
  split
  · have same : (Vector.ofFn fun l : LaneId => { s.lane l with news := (s.lane l).news ++ [] }) = s.lanes := by
      ext1 n inside
      simp [State.lane]
    rw [same]
  · rfl

/-- R185: the two conditions set, and a change of no report space told. -/
def State.withSpace (s : State) (no low : Bool) : State :=
  { s with
    report := { s.report with noSpace := no, spaceLow := low }
    lanes := Vector.ofFn fun l : LaneId => { s.lane l with
      news := (s.lane l).news ++ if no = s.report.noSpace then [] else [no] } }
/-- R185, R186, R189: the settling by the values the two conditions take. -/
theorem settleReport_eq {s : State} {no low : Bool} (hno : no = true ↔ s.report.unreserved = 0)
    (hlow : low = true ↔ s.report.unreserved < 32) : s.settleReport =
    if low = s.report.spaceLow then s.withSpace no low
    else (if low then (s.withSpace no low).onReport ReportUnit.sendAll else s.withSpace no low).deviceNotice .reportSpaceLow (edgeOf low)
      (.count s.report.unreserved) := by
  have free : (s.report.unreserved == 0) = no := Bool.eq_iff_iff.2 (beq_iff_eq.trans hno.symm)
  have below : decide (s.report.unreserved < Config.lowSpace) = low := Bool.eq_iff_iff.2 (decide_eq_true_iff.trans hlow.symm)
  unfold State.settleReport
  dsimp only
  rw [free, below, tellLanes_ite]
  rfl
/-- R186: a fall below 32 makes every filled record due; with nothing filled, or at a rise, the report unit stands. -/
theorem withSpace_due {s : State} {low due : Bool} (change : low ≠ s.report.spaceLow)
    (hdue : due = true ↔ low = true ∧ s.report.spaceLow = false ∧ s.report.filled ≠ []) (no : Bool) :
    (if low then (s.withSpace no low).onReport ReportUnit.sendAll else s.withSpace no low) =
      { s.withSpace no low with report := { (s.withSpace no low).report with
          sendPoint := if due then some (s.report.filled.length - 1) else s.report.sendPoint
          holdTimer := if due then none else s.report.holdTimer } } := by
  cases low with
  | false =>
    have stands : due = false := by simpa using hdue
    subst stands
    rfl
  | true =>
    have wasFree : s.report.spaceLow = false := by simpa using change.symm
    have filled : s.report.filled ≠ [] ↔ due = true := by simpa [wasFree] using hdue.symm
    rw [if_pos rfl, State.onReport, sendAll_eq_ite]
    simp only [State.withSpace, filled]
    split <;> rfl

/-- Settles O10: with REPORT SPACE LOW as it was nothing falls due; with a change of it the notice follows. -/
theorem reportSpaceIsSettled : Obligations.ReportSpaceIsSettled := by
  intro s u no low due hno hlow hdue hu
  subst hu
  rw [settleReport_eq hno hlow]
  by_cases same : low = s.report.spaceLow
  · have stands : due = false := by
      rw [Bool.eq_false_iff, Ne, hdue]
      rintro ⟨isLow, wasFree, -⟩
      simp [same, wasFree] at isLow
    rw [if_pos same, if_pos same, stands]
    rfl
  · rw [if_neg same, if_neg same, withSpace_due same hdue]
    rfl

end Sys2Proof.Machine
end

section
/-! The ITEM END of a TEST lane (R90, R176 to R178). -/

namespace Sys2Proof.Machine

/-! The comparison. -/

/-- R177: a value sent as it is, is CORRECT when the identifier read is valid and its own. -/
theorem compare_plain {v : BitVec 15} {x : Option Ident} {r : TestResult}
    (h : (∃ y, x = some y ∧ judge y = .valid ∧ y.text = testIdentifier v) ∧ r = .correct ∨
      (¬ ∃ y, x = some y ∧ judge y = .valid ∧ y.text = testIdentifier v) ∧ r = .error) :
    (⟨v, false⟩ : Outstanding).compare x = r := by
  obtain ⟨⟨y, rfl, valid, text⟩, rfl⟩ | ⟨other, rfl⟩ := h
  · exact if_pos ⟨valid, text⟩
  · cases x with
    | none => rfl
    | some y => exact if_neg fun both => other ⟨y, rfl, both⟩
/-- R177: a value sent with a wrong check digit is detected when the identifier read is invalid. -/
theorem compare_injected {v : BitVec 15} {x : Option Ident} {r : TestResult}
    (h : (∃ y, x = some y ∧ judge y = .invalid) ∧ r = .injectedDetected ∨
      (¬ ∃ y, x = some y ∧ judge y = .invalid) ∧ r = .error) :
    (⟨v, true⟩ : Outstanding).compare x = r := by
  obtain ⟨⟨y, rfl, invalid⟩, rfl⟩ | ⟨other, rfl⟩ := h
  · exact if_pos invalid
  · cases x with
    | none => rfl
    | some y => exact if_neg fun invalid => other ⟨y, rfl, invalid⟩

/-! The result counted and followed. -/

/-- R177, R178: the counters, the runs and the sync state after a result. -/
def TestUnit.after (t : TestUnit) (r : TestResult) : TestUnit :=
  { t with
    correct := if r = .correct then bump t.correct else t.correct
    errors := if r = .error then bump t.errors else t.errors
    injectedDetected := if r = .injectedDetected then bump t.injectedDetected else t.injectedDetected
    correctRun := if r = .error then 0 else min (t.correctRun + 1) 4
    errorRun := if r = .error then min (t.errorRun + 1) 2 else 0
    inSync := if r = .error then t.inSync && decide (t.errorRun + 1 < 2) else t.inSync || decide (4 ≤ t.correctRun + 1) }
theorem follow_count (t : TestUnit) (r : TestResult) : (t.count r).follow r = t.after r := by
  have gains : (min (t.correctRun + 1) Config.syncGain == Config.syncGain) = decide (4 ≤ t.correctRun + 1) := by
    rw [Bool.eq_iff_iff, beq_iff_eq, decide_eq_true_iff, Config.syncGain]
    omega
  have stays : (min (t.errorRun + 1) Config.syncLoss != Config.syncLoss) = decide (t.errorRun + 1 < 2) := by
    rw [Bool.eq_iff_iff, bne_iff_ne, decide_eq_true_iff, Config.syncLoss]
    omega
  cases r with
  | correct | injectedDetected =>
    simp only [TestUnit.count, TestUnit.follow, gains]
    rfl
  | error =>
    simp only [TestUnit.count, TestUnit.follow, stays]
    rfl
/-- R177: with nothing outstanding the result is an ERROR, unsolicited. -/
theorem take_nil {t : TestUnit} (h : t.outstanding = []) (x : Option Ident) :
    t.take x = (({ t with unsolicited := bump t.unsolicited } : TestUnit).after .error, none) := by
  rw [TestUnit.take, h]
  exact congrArg (·, none) (follow_count _ .error)
/-- R177: the oldest outstanding value is compared and leaves the list. -/
theorem take_cons {t : TestUnit} {o : Outstanding} {rest : List Outstanding} (h : t.outstanding = o :: rest) (x : Option Ident) :
    t.take x = (({ t with outstanding := rest } : TestUnit).after (o.compare x), some o.value) := by
  rw [TestUnit.take, h]
  exact congrArg (·, some o.value) (follow_count _ _)

/-! The reading ends. -/

/-- R90: the item that ends its reading takes its last observation before it is DECIDED. -/
theorem onReading_ended (v : Lane) (o : Option Observation) (f : Item → Item) :
    (v.ended o).onReading f = v.onReading fun j => f (j.ended o) := by
  have composed : (fun j : Item => if j.state = .reading then f j else j) ∘ (fun j => if j.state = .reading then j.ended o else j) =
      fun j => if j.state = .reading then f (j.ended o) else j := by
    funext j
    by_cases reading : j.state = .reading <;> simp [reading, state_ended]
  simp only [Lane.ended, Lane.onReading, List.map_map, composed]
/-- R90, R108, R176: the reading of any lane ends, in a comparison in TEST mode and else in a decision. -/
theorem endReading_of_reading {s : State} {l : LaneId} {v : Lane} {i : Item} (reads : v.readingItem = some i) (o : Option Observation) :
    (s.setLane l v).endReading l o =
      if v.mode = .test then (s.setLane l (v.ended o)).testItemEnd l (i.ended o)
      else (s.setLane l (v.ended o)).decideItem l (i.ended o) := by
  cases o with
  | none =>
    simp only [State.endReading, lane_setLane_same, reads, ended_none]
    rfl
  | some o =>
    have joined : (s.setLane l v).joinReading l o = s.setLane l (v.ended (some o)) := onLane_setLane s l v _
    simp only [State.endReading, joined, lane_setLane_same, readingItem_ended reads]
    rfl
/-- R90, R176: the lane with its READING item DECIDED to the run-out, and its test pattern unit after the comparison. -/
def Lane.comparedAs (v : Lane) (o : Option Observation) (i : Item) (t : TestUnit) : Lane :=
  { v with
    queue := (v.onReading fun j =>
      (j.ended o).settled ((i.ended o).observations.map HeldObservation.judged) (testDecision v.config.outlets)).queue
    counters := { v.counters with decided := bump v.counters.decided }
    test := t }
/-- R176 to R178: the comparison at an ITEM END, and the edge of TEST SYNC. -/
theorem testItemEnd_eq {v : Lane} {o : Option Observation} {i : Item} {t : TestUnit} {value : Option (BitVec 15)}
    (take : v.test.take (offered (i.ended o).idents) = (t, value)) (s : State) (l : LaneId) :
    (s.setLane l (v.ended o)).testItemEnd l (i.ended o) =
      if t.inSync = v.test.inSync then s.setLane l (v.comparedAs o i t)
      else (s.setLane l (v.comparedAs o i t)).laneNotice l .testSync (edgeOf t.inSync) (valueDetail value) := by
  have compared : (v.ended o).test.take (offered (identsOf ((i.ended o).observations.map HeldObservation.judged))) = (t, value) := take
  unfold State.testItemEnd
  simp only [lane_setLane_same, compared, onLane_setLane, onReading_ended]
  rfl
/-- R66, R90: the ITEM END of the READING item of a TEST lane. -/
theorem happens_testItemEnd {s w : State} {l : LaneId} {sq : Seq} {o : Option Observation} {i : Item} (acts : s.acts l (.itemEnd sq o))
    (mode : (s.lane l).mode = .test) (reads : (s.lane l).readingItem = some i) (number : i.sq = sq)
    (h : (s.setLane l ((s.lane l).heard.ended o)).testItemEnd l (i.ended o) = w) : Happens (.itemEnd l sq o) s (w.feedTest l) := by
  have heard : (s.lane l).heard.readingItem = some i := reads
  have names : ((s.setLane l (s.lane l).heard).lane l).namesReading sq = true := by
    rw [lane_setLane_same, ← number]
    exact namesReading_of heard
  exact happens_of_acts (r := .itemEnd sq o) acts
    (congrArg (State.feedTest · l) ((if_pos names).trans ((endReading_of_reading heard o).trans ((if_pos mode).trans h))))

/-- Settles O51: nothing outstanding, a value sent as it is, and a value sent with a wrong check digit. -/
theorem testReadingsAreCompared : Obligations.TestReadingsAreCompared := by
  intro s l sq o i t t' x r acts mode reads number ht hx result ht'
  have take : t.take x = (t', t.outstanding.head?.map Outstanding.value) := by
    obtain ⟨empty, rfl⟩ | ⟨_, _, ⟨oldest, compared⟩ | ⟨_, _, oldest, compared⟩⟩ := result
    · rw [take_nil empty, ht', empty]
      simp [TestUnit.after]
    · rw [take_cons oldest, compare_plain compared, ht', oldest]
      simp [TestUnit.after]
    · rw [take_cons oldest, compare_injected compared, ht', oldest]
      simp [TestUnit.after]
  have detail : valueDetail (t.outstanding.head?.map Outstanding.value) = match t.outstanding with
      | [] => .none
      | y :: _ => .testValue y.value := by
    cases t.outstanding <;> rfl
  subst ht hx
  refine ⟨_, _, rfl, rfl, happens_testItemEnd acts mode reads number ?_⟩
  refine (testItemEnd_eq (v := (s.lane l).heard) take s l).trans ?_
  rw [detail]
  rfl

end Sys2Proof.Machine
end

section
/-! The confirm window closed by CONFIRM and by its timer (R99 to R101). -/

namespace Sys2Proof.Machine

/-- R100: a CONFIRM names the outlet of the hold when it carries its number. -/
theorem outletByte_eq_iff (o : Fin 8) (x : Byte) : outletByte o = x ↔ x.toNat = o.val := by
  have number : (outletByte o).toNat = o.val := Nat.mod_eq_of_lt (o.isLt.trans (by decide))
  rw [← BitVec.toNat_inj, number, eq_comm]
/-- R100: a CONFIRM that names the held item closes its window. -/
theorem confirmItem_held {s : State} {l : LaneId} {h : HeldItem} (held : (s.lane l).held = some h) {sq : Seq} (named : h.item.sq = sq)
    (x : Byte) : s.confirmItem l sq x = s.closeWindow l (if x.toNat = h.outlet.val then .confirmed else .misrouted) := by
  simp only [State.confirmItem, held, named, if_true, outletByte_eq_iff]
/-- R67, R99: a window closed by a record the lane has just heard. -/
theorem closeWindow_heard (s : State) (l : LaneId) (r : ConfirmResult) : (s.setLane l (s.lane l).heard).closeWindow l r =
    (s.setLane l ((s.lane l).windowClosed r).heard).files (s.windowFilings l r) := by
  rw [closeWindow_eq, lane_setLane_same, setLane_setLane, windowClosed_heard, windowFilings_heard]
theorem closeWindow_none {s : State} {l : LaneId} (h : (s.lane l).held = none) (r : ConfirmResult) : s.closeWindow l r = s := by
  rw [State.closeWindow, h]
theorem exec_confirmTimerExpiry_none {s : State} {l : LaneId} (h : (s.lane l).held = none) : exec (.confirmTimerExpiry l) s = s.done := by
  rw [exec, execConfirmTimerExpiry, h]
/-- R100: the confirm timer closes the open window. -/
theorem exec_confirmTimerExpiry_held {s : State} {l : LaneId} {h : HeldItem} (held : (s.lane l).held = some h) :
    exec (.confirmTimerExpiry l) s = ((s.closeWindow l .noConfirm).feedTest l).done := by
  rw [exec, execConfirmTimerExpiry, held]

/-- Settles O52: the closing of a window, then CONFIRM, the confirm timer, and its expiry with no window open. -/
theorem confirmWindowsClose : Obligations.ConfirmWindowsClose := by
  refine ⟨fun s l r none => closeWindow_none none r, fun s l r h _ => closeWindow_eq s l r,
    fun s l sq x h r acts held named hr => ?confirm, fun s l h held => ?timer, fun s l none => ?idle⟩
  case confirm =>
    have heard : ((s.setLane l (s.lane l).heard).lane l).held = some h := by rwa [lane_setLane_same]
    subst hr
    exact happens_of_acts (r := .confirm sq x) acts
      (congrArg (State.feedTest · l) ((confirmItem_held heard named x).trans (closeWindow_heard s l _)))
  case timer =>
    refine happens_of_done ((exec_confirmTimerExpiry_held held).trans ?_)
    rw [closeWindow_eq]
  case idle => exact happens_of_done (exec_confirmTimerExpiry_none none)

end Sys2Proof.Machine
end

section
/-! What a command does to the account of titles, claims and accession numbers: one piece of work, or none. -/

namespace Sys2Proof.Machine

/-- The pieces of work that reach the account, each from the state its command gives it to the state it leaves. -/
inductive State.Works : State → State → Prop
  | powerOn (s : State) : s.Works s.poweredOn
  | clear (s : State) : s.Works s.cleared
  | announceTitle (s : State) (f : AnnounceFields) : s.Works (s.runAnnounceTitle f).1
  | amendTitle (s : State) (f : AmendFields) : s.Works (s.runAmendTitle f).1
  | withdrawTitle (s : State) (k : KeyText) : s.Works (s.runWithdrawTitle k).1
  | setDay (s : State) (d : Half) : s.Works (s.runSetDay d).1
  | setRun (s : State) (f : SetRunFields) : s.Works (s.runSetRun f).1
  | setAccessionBase (s : State) (b : Quad) : s.Works (s.runSetAccessionBase b).1
  | setSteering (s : State) (f : SteeringFields) : s.Works (s.runSetSteering f).1
  | takeClaims (s : State) (n : Half) : s.Works (s.runTakeClaims n).1
  | setGrace (s : State) (d : Half) : s.Works (s.runSetGrace d).1
  | decideItem (s : State) (l : LaneId) (i : Item) : s.Works (s.decideItem l i)
  | examineSweep (s : State) (e : EngineContext) : s.Works (s.examineSweep e)
  | examinePurge (s : State) (e : EngineContext) : s.Works (s.examinePurge e)

/-- From s to t the account stands, or changes by one piece of work. -/
def State.worked (s t : State) : Prop := s.agrees t ∨ ∃ u w, s.agrees u ∧ u.Works w ∧ w.agrees t

theorem worked_of_works {s t : State} (h : s.Works t) : s.worked t := .inr ⟨s, t, agrees_refl s, h, agrees_refl t⟩
theorem agrees_worked {s t u : State} (h : s.agrees t) (h' : t.worked u) : s.worked u := by
  obtain stands | ⟨v, w, to_v, works, from_w⟩ := h'
  · exact .inl (agrees_trans h stands)
  · exact .inr ⟨v, w, agrees_trans h to_v, works, from_w⟩
theorem worked_agrees {s t u : State} (h : s.worked t) (h' : t.agrees u) : s.worked u := by
  obtain stands | ⟨v, w, to_v, works, from_w⟩ := h
  · exact .inl (agrees_trans stands h')
  · exact .inr ⟨v, w, to_v, works, agrees_trans from_w h'⟩
theorem worked_of_done {s t u : State} (h : u.done = .next t) (worked : s.worked u) : s.worked t := by
  cases h
  exact worked_agrees worked (agrees_grant u)
theorem worked_of_command {α : Type} {s t : State} {code tag : Byte} {body : Body α} {run : α → State → State × ReplyBody}
    (h : s.command code tag body run = .next t) (block : ∀ a (u : State), u.worked (run a u).1) : s.worked t := by
  obtain stands | ⟨a, u, to_u, runs⟩ := command_next h
  · exact .inl stands
  · exact worked_agrees (agrees_worked to_u (block a u)) runs
theorem worked_of_receive {s t : State} {l : LaneId} {r : StationRecord} {act : State → State}
    (h : (s.receive l r act).done = .next t) (acts : ∀ u : State, u.worked (act u)) : s.worked t := by
  refine worked_of_done h ?_
  obtain stays | ⟨u, to_u, acted⟩ := agrees_receive s l r act
  · exact .inl stays
  · exact worked_agrees (agrees_worked to_u (acts u)) acted

/-! Commands that leave the account. -/

theorem agrees_withLane {s : State} (b : Byte) {act : LaneId → State × ReplyBody} (h : ∀ l, s.agrees (act l).1) :
    s.agrees (s.withLane b act).1 := by
  unfold State.withLane
  split
  · exact h _
  · exact agrees_refl s
theorem agrees_withKey {s : State} (k : KeyText) {act : Key → State × ReplyBody} (h : ∀ v, s.agrees (act v).1) :
    s.agrees (s.withKey k act).1 := by
  unfold State.withKey
  split
  · exact h _
  · exact agrees_refl s
theorem agrees_accept (s : State) (op : Operation) (start : Nat) : s.agrees (s.accept op start).1 := by
  unfold State.accept
  split
  · exact agrees_refl s
  · split
    · exact agrees_refl s
    · split
      · exact agrees_refl s
      · exact agrees_trans (agrees_onReport s _) (agrees_goOn _ _)
theorem agrees_runSetNotices (s : State) (ps : List EnablePair) : s.agrees (s.runSetNotices ps).1 := by
  unfold State.runSetNotices
  split
  · exact agrees_onReport s _
  · exact agrees_refl s
theorem agrees_runAbort (s : State) : s.agrees s.runAbort.1 := by
  unfold State.runAbort
  split
  · exact agrees_refl s
  · exact agrees_complete s _ _ _ _
theorem agrees_runConfigureLane (s : State) (f : ConfigureFields) : s.agrees (s.runConfigureLane f).1 := by
  refine agrees_withLane _ fun l => ?_
  dsimp only
  split
  · exact agrees_refl s
  · split
    · exact agrees_refl s
    · exact agrees_onLane s l _
theorem agrees_runEnableLane (s : State) (b : Byte) : s.agrees (s.runEnableLane b).1 := by
  refine agrees_withLane _ fun l => ?_
  dsimp only
  split
  · exact agrees_refl s
  · split
    · exact agrees_refl s
    · exact agrees_trans (agrees_onLane s l _) (agrees_laneNotice _ l _ _ _)
theorem agrees_runDisableLane (s : State) (b : Byte) : s.agrees (s.runDisableLane b).1 := by
  refine agrees_withLane _ fun l => ?_
  dsimp only
  split
  · exact agrees_refl s
  · exact agrees_disableLane s l _
theorem agrees_runSetLaneMode (s : State) (f : LaneModeFields) : s.agrees (s.runSetLaneMode f).1 := by
  refine agrees_withLane _ fun l => ?_
  split
  · exact agrees_onLane s l _
  · exact agrees_refl s
theorem agrees_runInjectError (s : State) (b : Byte) : s.agrees (s.runInjectError b).1 := by
  refine agrees_withLane _ fun l => ?_
  split
  · exact agrees_onLane s l _
  · exact agrees_refl s
theorem agrees_runCloseConsignment (s : State) (b : Byte) : s.agrees (s.runCloseConsignment b).1 := by
  refine agrees_withLane _ fun l => ?_
  split
  · exact agrees_refl s
  · exact agrees_closeConsignment s l _
theorem agrees_runReadTitle (s : State) (k : KeyText) : s.agrees (s.runReadTitle k).1 := by
  refine agrees_withKey _ fun v => ?_
  split <;> exact agrees_refl s
theorem agrees_runListTitles (s : State) (f : ListFields) : s.agrees (s.runListTitles f).1 := by
  unfold State.runListTitles
  split <;> exact agrees_refl s

/-! The 60 commands. -/

/-- R90: an ITEM END reaches the account by the decision of its item alone. -/
theorem worked_endItemReading (s : State) (l : LaneId) (sq : Seq) (o : Option Observation) : s.worked (s.endItemReading l sq o) := by
  have ended (u : State) : u.worked (match (u.lane l).readingItem with
      | some i => if (u.lane l).mode = .test then u.testItemEnd l i else u.decideItem l i
      | none => u) := by
    split
    · split
      · exact .inl (agrees_testItemEnd u l _)
      · exact worked_of_works (.decideItem u l _)
    · exact .inl (agrees_refl u)
  unfold State.endItemReading
  split
  · cases o with
    | none => exact ended s
    | some o => exact agrees_worked (agrees_joinReading s l o) (ended _)
  · exact .inl (agrees_misdirected s l _ _)

/-- Every one of the 60 commands leaves the account or does one piece of work on it. -/
theorem exec_worked {c : Instr} {s t : State} (h : exec c s = .next t) : s.worked t := by
  cases c with
  | powerOn => exact worked_of_done h (worked_agrees (worked_of_works (.powerOn s)) (agrees_ask _ _ _ _ _))
  | clear =>
    simp only [exec, execClear] at h
    exact worked_of_command h fun _ u => worked_agrees (worked_of_works (.clear u)) (agrees_ask _ _ _ _ _)
  | restart =>
    simp only [exec, execRestart] at h
    exact worked_of_command h fun _ u => .inl (agrees_runRestart u)
  | announceTitle =>
    simp only [exec, execAnnounceTitle] at h
    exact worked_of_command h fun f u => worked_of_works (.announceTitle u f)
  | amendTitle =>
    simp only [exec, execAmendTitle] at h
    exact worked_of_command h fun f u => worked_of_works (.amendTitle u f)
  | withdrawTitle =>
    simp only [exec, execWithdrawTitle] at h
    exact worked_of_command h fun k u => worked_of_works (.withdrawTitle u k)
  | setDay =>
    simp only [exec, execSetDay] at h
    exact worked_of_command h fun d u => worked_of_works (.setDay u d)
  | setRun =>
    simp only [exec, execSetRun] at h
    exact worked_of_command h fun f u => worked_of_works (.setRun u f)
  | setAccessionBase =>
    simp only [exec, execSetAccessionBase] at h
    exact worked_of_command h fun b u => worked_of_works (.setAccessionBase u b)
  | setSteering =>
    simp only [exec, execSetSteering] at h
    exact worked_of_command h fun f u => worked_of_works (.setSteering u f)
  | takeClaims =>
    simp only [exec, execTakeClaims] at h
    exact worked_of_command h fun n u => worked_of_works (.takeClaims u n)
  | setGrace =>
    simp only [exec, execSetGrace] at h
    exact worked_of_command h fun d u => worked_of_works (.setGrace u d)
  | itemEnd l sq o => exact worked_of_receive h fun u => worked_endItemReading u l sq o
  | sweepExamination =>
    simp only [exec, execSweepExamination] at h
    split at h
    · split at h
      · exact worked_of_done h (worked_of_works (.examineSweep s _))
      · exact worked_of_done h (.inl (agrees_refl s))
      · exact worked_of_done h (.inl (agrees_refl s))
    · exact worked_of_done h (.inl (agrees_refl s))
  | purgeExamination =>
    simp only [exec, execPurgeExamination] at h
    split at h
    · split at h
      · exact worked_of_done h (worked_of_works (.examinePurge s _))
      · exact worked_of_done h (.inl (agrees_refl s))
      · exact worked_of_done h (.inl (agrees_refl s))
    · exact worked_of_done h (.inl (agrees_refl s))
  | findExamination =>
    simp only [exec, execFindExamination] at h
    split at h
    · split at h
      · exact worked_of_done h (.inl (agrees_examineFind s _ _))
      · exact worked_of_done h (.inl (agrees_refl s))
      · exact worked_of_done h (.inl (agrees_refl s))
    · exact worked_of_done h (.inl (agrees_refl s))
  | identify | readCounters | setReportHold | holdReports | releaseReports | flushReports | readAccession | readClaimStatus
  | engineStatus =>
    simp only [exec, execIdentify, execReadCounters, execSetReportHold, execHoldReports, execReleaseReports, execFlushReports,
      execReadAccession, execReadClaimStatus, execEngineStatus] at h
    exact worked_of_command h fun _ _ => .inl ⟨rfl, rfl, rfl, rfl⟩
  | setNotices =>
    simp only [exec, execSetNotices] at h
    exact worked_of_command h fun ps u => .inl (agrees_runSetNotices u ps)
  | readTitle =>
    simp only [exec, execReadTitle] at h
    exact worked_of_command h fun k u => .inl (agrees_runReadTitle u k)
  | listTitles =>
    simp only [exec, execListTitles] at h
    exact worked_of_command h fun f u => .inl (agrees_runListTitles u f)
  | configureLane =>
    simp only [exec, execConfigureLane] at h
    exact worked_of_command h fun f u => .inl (agrees_runConfigureLane u f)
  | enableLane =>
    simp only [exec, execEnableLane] at h
    exact worked_of_command h fun b u => .inl (agrees_runEnableLane u b)
  | disableLane =>
    simp only [exec, execDisableLane] at h
    exact worked_of_command h fun b u => .inl (agrees_runDisableLane u b)
  | setLaneMode =>
    simp only [exec, execSetLaneMode] at h
    exact worked_of_command h fun f u => .inl (agrees_runSetLaneMode u f)
  | injectError =>
    simp only [exec, execInjectError] at h
    exact worked_of_command h fun b u => .inl (agrees_runInjectError u b)
  | clearDiverterFault =>
    simp only [exec, execClearDiverterFault] at h
    exact worked_of_command h fun b u => .inl (agrees_withLane b fun l => agrees_clearFault u l)
  | readLane | readTest | readConsignment =>
    simp only [exec, execReadLane, execReadTest, execReadConsignment] at h
    exact worked_of_command h fun b u => .inl (agrees_withLane b fun _ => agrees_refl u)
  | closeConsignment =>
    simp only [exec, execCloseConsignment] at h
    exact worked_of_command h fun b u => .inl (agrees_runCloseConsignment u b)
  | abort =>
    simp only [exec, execAbort] at h
    exact worked_of_command h fun _ u => .inl (agrees_runAbort u)
  | sweep | purge =>
    simp only [exec, execSweep, execPurge] at h
    exact worked_of_command h fun _ u => .inl (agrees_accept u _ _)
  | find =>
    simp only [exec, execFind] at h
    refine worked_of_command h fun f u => .inl ?_
    split
    · exact agrees_refl u
    · exact agrees_accept u _ _
  | unknownCommand code tag =>
    simp only [exec, execUnknownCommand] at h
    split at h
    · exact worked_of_done h (.inl (agrees_refl s))
    · obtain dropped | ⟨u, to_u, runs⟩ := takeFrame_next h
      · exact .inl dropped
      · exact .inl (agrees_trans to_u (agrees_trans ⟨rfl, rfl, rfl, rfl⟩ runs))
  | hostLengthError | hostCrcError | laneRecordSent => exact worked_of_done h (.inl ⟨rfl, rfl, rfl, rfl⟩)
  | commandDropped =>
    simp only [exec, execCommandDropped] at h
    split at h <;> exact worked_of_done h (.inl ⟨rfl, rfl, rfl, rfl⟩)
  | replySent =>
    simp only [exec, execReplySent] at h
    split at h <;> exact worked_of_done h (.inl ⟨rfl, rfl, rfl, rfl⟩)
  | batchSent =>
    simp only [exec, execBatchSent] at h
    split at h
    · exact worked_of_done h (.inl (agrees_trans ⟨rfl, rfl, rfl, rfl⟩ (agrees_settleReport _)))
    · exact worked_of_done h (.inl (agrees_refl s))
    · exact worked_of_done h (.inl (agrees_refl s))
  | holdTimerExpiry =>
    simp only [exec, execHoldTimerExpiry] at h
    split at h <;> exact worked_of_done h (.inl ⟨rfl, rfl, rfl, rfl⟩)
  | noReportSpaceNews l => exact worked_of_done h (.inl (agrees_takeNews s l))
  | linkCheckFailure l | recordNotWellFormed l =>
    exact worked_of_done h (.inl (agrees_ite _ (agrees_refl s) (agrees_countLinkError s l)))
  | heartbeat l b d => exact worked_of_receive h fun u => .inl (agrees_noteBelt u l b d)
  | itemBegin l sq => exact worked_of_receive h fun u => .inl (agrees_beginItem u l sq)
  | observation l sq o => exact worked_of_receive h fun u => .inl (agrees_observe u l sq o)
  | atGate l sq => exact worked_of_receive h fun u => .inl (agrees_gate u l sq)
  | confirm l sq x => exact worked_of_receive h fun u => .inl (agrees_confirmItem u l sq x)
  | silenceTimerExpiry l => exact worked_of_done h (.inl (agrees_silenceExpired s l))
  | confirmTimerExpiry l =>
    simp only [exec, execConfirmTimerExpiry] at h
    split at h
    · exact worked_of_done h (.inl (agrees_refl s))
    · exact worked_of_done h (.inl (agrees_trans (agrees_closeWindow s l _) (agrees_feedTest _ l)))
/-- A step leaves the account or does one piece of work on it. -/
theorem step_works {s t : State} (h : step s = .next t) :
    SameAccount s t ∨ ∃ u w, SameAccount s u ∧ u.Works w ∧ SameAccount w t := by
  unfold step at h
  split at h
  · cases h
    exact .inl ⟨rfl, rfl, rfl⟩
  · next c rest _ =>
    obtain ⟨-, stands⟩ | ⟨u, w, ⟨-, to_u⟩, works, -, from_w⟩ := exec_worked (s := { s with pending := rest }) h
    · exact .inl stands
    · exact .inr ⟨u, w, to_u, works, from_w⟩

end Sys2Proof.Machine
end

section
/-! The accession counter (R107, R117, R118, R126): no work on the account but SET ACCESSION BASE and the decisions moves it, and these keep
its form. -/

namespace Sys2Proof.Machine

/-! Arrivals issue no number. -/

/-- From a to b an arrival asks a run of requests of the claim list. -/
def ArrivalStep.asksRun (a : ArrivalStep) (k : Key) (q : Nat) (b : ArrivalStep) : Prop := ∃ rs, a.asks k q rs b

theorem asksRun_refl (a : ArrivalStep) (k : Key) (q : Nat) : a.asksRun k q a := ⟨[], rfl, rfl⟩
theorem asksRun_trans {a b c : ArrivalStep} {k : Key} {q : Nat} (h : a.asksRun k q b) (h' : b.asksRun k q c) : a.asksRun k q c := by
  obtain ⟨_, asks⟩ := h
  obtain ⟨_, asks'⟩ := h'
  exact ⟨_, asks_append asks asks'⟩
theorem foldl_asksRun {α : Type} {f : ArrivalStep → α → ArrivalStep} {k : Key} {q : Nat} (step : ∀ a x, ArrivalStep.asksRun a k q (f a x))
    (xs : List α) (a : ArrivalStep) : a.asksRun k q (xs.foldl f a) :=
  foldl_keeps (P := a.asksRun k q) (fun b x h => asksRun_trans h (step b x)) xs a (asksRun_refl a k q)
theorem closeGaps_asksRun (a : ArrivalStep) (k : Key) (q last : Nat) : a.asksRun k q (a.closeGaps k q last) := by
  have raised : ({ a with part := a.part.received last } : ArrivalStep).asksRun k q (a.raiseGaps k q last) :=
    foldl_asksRun (fun b y => ⟨_, raise_asks b k q .gap y⟩) _ _
  obtain ⟨rs, asks⟩ := raised
  exact ⟨rs, asks⟩
/-- R45 to R54: whatever an arrival finds, it asks a run of requests. -/
theorem commit_asksRun (a : ArrivalStep) (k : Key) (q n span : Nat) : a.asksRun k q (a.commit k q n span) := by
  have behind := foldl_asksRun (fun b m => ⟨_, satisfy_asks b k q false m⟩) ((coveredBy n span).filter fun x => decide (x < a.part.w)) a
  rw [commit_eq]
  dsimp only
  generalize List.foldl _ a _ = b at *
  split
  · exact behind
  · have slid : b.asksRun k q (b.slide k q (n + span - 1)) := ⟨_, slide_asks b k q _⟩
    have marked := foldl_asksRun (fun c x => ⟨_, mark_asks c k q x⟩) ((coveredBy n span).filter fun x => decide (a.part.w ≤ x))
      (b.slide k q (n + span - 1))
    exact asksRun_trans behind (asksRun_trans slid (asksRun_trans marked (closeGaps_asksRun _ k q _)))
theorem decision_of_asksRun {a b : ArrivalStep} {k : Key} {q : Nat} (h : a.asksRun k q b) : b.state.decision = a.state.decision := by
  obtain ⟨rs, state, -⟩ := h
  rw [state]
  exact (claimsAfter_fields _ _ _ _).2.2.2.1

theorem decision_satisfyMonograph (s : State) (k : Key) (c : ClaimState) : (s.satisfyMonograph k c).1.decision = s.decision := by
  cases c <;> simp [State.satisfyMonograph]
theorem decision_commitMonograph (s : State) (n : Nat) (r : TitleRecord) (m : MonographPart) :
    (s.commitMonograph n r m).1.decision = s.decision := by
  unfold State.commitMonograph
  dsimp only
  split
  · exact decision_satisfyMonograph s _ _
  · rfl
theorem decision_commitSerial (s : State) (n : Nat) (r : TitleRecord) (p : SerialPart) (first span : Nat) :
    (s.commitSerial n r p first span).1.decision = s.decision :=
  decision_of_asksRun (commit_asksRun ⟨s, p, .none⟩ r.key r.q first span)
theorem decision_commitIf {s : State} {commit : State × Indications} (h : commit.1.decision = s.decision) (normal available : Bool)
    (a : Answer) : (s.commitIf normal available a commit).1.decision = s.decision := by
  unfold State.commitIf
  split
  · exact h
  · rfl
/-- R32, R117: the Title Table issues no number. -/
theorem decision_arrival (s : State) (k : Key) (e : Option Enumeration) (normal available : Bool) :
    (s.arrival k e normal available).1.decision = s.decision := by
  unfold State.arrival
  split
  · rfl
  · split
    · rfl
    · split
      · exact decision_commitIf (decision_commitMonograph s _ _ _) _ _ _
      · unfold State.serialArrival
        split
        · rfl
        · dsimp only
          split
          · rfl
          · exact decision_commitIf (decision_commitSerial s _ _ _ _ _) _ _ _

/-! Nor do the commands of the Title Table and of the claim list, nor the engine. -/

theorem decision_withKey {s : State} (k : KeyText) {act : Key → State × ReplyBody} (h : ∀ v, (act v).1.decision = s.decision) :
    (s.withKey k act).1.decision = s.decision := by
  unfold State.withKey
  split
  · exact h _
  · rfl
theorem decision_runAnnounceTitle (s : State) (f : AnnounceFields) : (s.runAnnounceTitle f).1.decision = s.decision := by
  refine decision_withKey _ fun k => ?_
  dsimp only
  split
  · rfl
  · split
    · simp
    · split <;> simp
theorem decision_settleAmended (s : State) (n : Nat) (r : TitleRecord) : (s.settleAmended n r).1.decision = s.decision := by
  unfold State.settleAmended
  split
  · split
    · split
      · exact decision_satisfyMonograph s _ _
      · rfl
    · rfl
  · rfl
theorem decision_runAmendTitle (s : State) (f : AmendFields) : (s.runAmendTitle f).1.decision = s.decision := by
  refine decision_withKey _ fun k => ?_
  split
  · rfl
  · split
    · rfl
    · split
      · rfl
      · split
        · rfl
        · exact decision_settleAmended s _ _
theorem decision_runWithdrawTitle (s : State) (k : KeyText) : (s.runWithdrawTitle k).1.decision = s.decision := by
  refine decision_withKey _ fun k => ?_
  split
  · rfl
  · split
    · rfl
    · simp
theorem decision_runSetRun (s : State) (f : SetRunFields) : (s.runSetRun f).1.decision = s.decision := by
  refine decision_withKey _ fun k => ?_
  split
  · rfl
  · split
    · rfl
    · split
      · rfl
      · split <;> rfl
theorem decision_markTaken (s : State) (e : ClaimEntry) : (s.markTaken e).decision = s.decision := by
  unfold State.markTaken
  split
  · split <;> rfl
  · rfl
theorem decision_runTakeClaims (s : State) (n : Half) : (s.runTakeClaims n).1.decision = s.decision := by
  unfold State.runTakeClaims
  split
  · rfl
  · simp only [withClaims_fields]
    exact foldl_same State.decision decision_markTaken _ s
theorem decision_goOn (s : State) (e : EngineContext) : (s.goOn e).decision = s.decision := (agrees_goOn s e).2.2.2
theorem decision_sweepSerial (s : State) (e : EngineContext) (r : TitleRecord) (p : SerialPart) :
    (s.sweepSerial e r p).1.decision = s.decision :=
  foldl_same (f := sweepRaise r.key r.q) (fun a => a.1.state.decision)
    (fun a y => decision_of_asksRun ⟨_, raise_asks a.1 r.key r.q .overdue y⟩) (p.overdueRuns r.q) (⟨s, p, .none⟩, e)
theorem decision_examineSweep (s : State) (e : EngineContext) : (s.examineSweep e).decision = s.decision := by
  unfold State.examineSweep
  split
  · exact decision_goOn s _
  · refine (decision_goOn _ _).trans ?_
    split
    · split
      · simp [State.sweepMonograph]
      · rfl
    · split
      · exact decision_sweepSerial s e _ _
      · rfl
theorem decision_examinePurge (s : State) (e : EngineContext) : (s.examinePurge e).decision = s.decision := by
  unfold State.examinePurge
  split
  · exact decision_goOn s _
  · split
    · exact (decision_goOn _ _).trans (withTable_fields s _).2.2.2.1
    · exact decision_goOn s _

/-! The form of the counter. -/

theorem decisionWf_reset : DecisionUnit.reset.wf := ⟨rfl, by decide, by decide⟩
/-- R117: an available number issued stands below the next, which is 100,000,000 at most. -/
theorem issue_wf {d : DecisionUnit} (available : d.available = true) (h : d.wf) : d.issue.1.wf := by
  obtain ⟨base, range, -⟩ := h
  unfold DecisionUnit.available at available
  split at available
  · next n next =>
    have within := of_decide_eq_true available
    have positive := (range n next).1
    rw [issue_of_next next]
    refine ⟨base.trans (by rw [next]; rfl), ?_, ?_⟩
    · rintro _ ⟨⟩
      omega
    · rintro _ ⟨⟩
      exact ⟨positive, n + 1, rfl, Nat.lt_succ_self n⟩
  · cases available
/-- R118: an answer that stays MATCHED had a number available. -/
theorem available_of_turned {a : Answer} {available : Bool} (h : (a.turned available).reason = .matched) : available = true := by
  cases available with
  | true => rfl
  | false =>
    by_cases matched : a.reason = .matched
    · simp [Answer.turned, matched] at h
    · simp [Answer.turned, matched] at h
/-- R115 to R118: a key decided issues a number where one is available, and no other. -/
theorem decideKey_wf {s : State} (h : s.decision.wf) (k : Key) (e : Option Enumeration) (normal : Bool) :
    (s.decideKey k e normal).1.decision.wf := by
  unfold State.decideKey
  generalize offer : (if normal = true then s.decision.available else true) = available
  have same := decision_arrival s k e normal available
  dsimp only
  split
  · next issues =>
    obtain ⟨is_normal, matched⟩ := issues
    rw [if_pos is_normal, available_of_turned matched] at offer
    rw [same]
    exact issue_wf offer h
  · rwa [same]
theorem identify_wf {s : State} (h : s.decision.wf) (l : LaneId) (is : List Ident) : (s.identify l is).1.decision.wf := by
  unfold State.identify
  split
  · exact h
  · exact h
  · exact decideKey_wf h _ _ _
theorem exhaustion_wf {s : State} (h : s.decision.wf) (l : LaneId) (sq : Seq) : (s.exhaustion l sq).decision.wf := by
  unfold State.exhaustion
  split
  · exact h
  · rw [(deviceNotice_fields _ _ _ _).2.2.2.1]
    exact h
theorem raiseDecision_wf {s : State} (h : s.decision.wf) (l : LaneId) (sq : Seq) (n : Nat) (d : Draft) (a : SlipAction) :
    (s.raiseDecision l sq n d a).decision.wf := by
  unfold State.raiseDecision
  split
  · rwa [(laneNotice_fields _ _ _ _ _).2.2.2.1]
  · split
    · rw [(laneNotice_fields _ _ _ _ _).2.2.2.1]
      exact h
    · exact exhaustion_wf h l sq
    · exact h
theorem decideItem_wf {s : State} (h : s.decision.wf) (l : LaneId) (i : Item) : (s.decideItem l i).decision.wf := by
  have found := identify_wf h l (identsOf (i.observations.map HeldObservation.judged))
  unfold State.decideItem
  dsimp only
  generalize State.identify s l _ = out at *
  obtain ⟨-, -, -, told⟩ := agrees_informConsignment out.1 l i.consignment out.2
  rw [(settleReport_fields _).2.2.2.1]
  refine raiseDecision_wf ?_ l i.sq _ _ _
  rw [(onLane_fields _ _ _).2.2.2.2.2.1, told]
  exact found
/-- R126: a base above the last issued number. -/
theorem runSetAccessionBase_wf {s : State} (h : s.decision.wf) (b : Quad) : (s.runSetAccessionBase b).1.decision.wf := by
  unfold State.runSetAccessionBase
  split
  · exact h
  · next range =>
    split
    · exact h
    · next above =>
      unfold Config.lastAccession at range
      refine ⟨rfl, ?_, fun m last => ⟨(h.2.2 m last).1, b.toNat, rfl, ?_⟩⟩
      · rintro _ ⟨⟩
        unfold Config.lastAccession
        omega
      · rw [show s.decision.last = some m from last] at above
        exact Nat.lt_of_not_le above
/-- R128: the steering table stands beside the counter. -/
theorem steer_wf {d : DecisionUnit} (h : d.wf) (first : Nat) (desks : List (Fin 4)) : (d.steer first desks).wf := by
  rw [DecisionUnit.steer]
  exact h
theorem runSetSteering_wf {s : State} (h : s.decision.wf) (f : SteeringFields) : (s.runSetSteering f).1.decision.wf := by
  unfold State.runSetSteering
  split
  · exact h
  · split
    · exact h
    · exact steer_wf h _ _

/-- Every piece of work on the account keeps the form of the counter. -/
theorem works_decisionWf {s t : State} (works : s.Works t) (h : s.decision.wf) : t.decision.wf := by
  cases works with
  | powerOn | clear => exact decisionWf_reset
  | announceTitle f => rwa [decision_runAnnounceTitle]
  | amendTitle f => rwa [decision_runAmendTitle]
  | withdrawTitle k => rwa [decision_runWithdrawTitle]
  | setDay | setGrace => exact h
  | setRun f => rwa [decision_runSetRun]
  | setAccessionBase b => exact runSetAccessionBase_wf h b
  | setSteering f => exact runSetSteering_wf h f
  | takeClaims n => rwa [decision_runTakeClaims]
  | decideItem l i => exact decideItem_wf h l i
  | examineSweep e => rwa [decision_examineSweep]
  | examinePurge e => rwa [decision_examinePurge]

/-- Settles O57: a step does at most one piece of work on the account. -/
theorem accessionCounterIsKept : Obligations.AccessionCounterIsKept := by
  intro s t wf h
  obtain ⟨-, -, stands⟩ | ⟨u, w, ⟨-, -, to_u⟩, works, -, -, from_w⟩ := step_works h
  · rwa [stands]
  · rw [from_w]
    exact works_decisionWf works (by rwa [to_u])

end Sys2Proof.Machine
end

section
/-! Settings, and the commands that read what stands (R21, R126 to R128, R154, R155, R168, R190). -/

namespace Sys2Proof.Machine

theorem exec_identify (tag : Byte) (body : Body Unit) (s : State) :
    exec (.identify tag body) s = s.command 0x01#8 tag body fun _ s => (s, .done .identity) := rfl
theorem exec_readCounters (tag : Byte) (body : Body Unit) (s : State) : exec (.readCounters tag body) s =
    s.command 0x02#8 tag body fun _ s => (s, .done (.counters s.host.counters (s.lanes.toList.map (·.counters)))) := rfl
theorem exec_setDay (tag : Byte) (body : Body Half) (s : State) :
    exec (.setDay tag body) s = s.command 0x15#8 tag body fun d s => s.runSetDay d := rfl
theorem exec_setAccessionBase (tag : Byte) (body : Body Quad) (s : State) :
    exec (.setAccessionBase tag body) s = s.command 0x20#8 tag body fun b s => s.runSetAccessionBase b := rfl
theorem exec_readAccession (tag : Byte) (body : Body Unit) (s : State) : exec (.readAccession tag body) s =
    s.command 0x21#8 tag body fun _ s =>
      (s, .done (.accession s.decision.baseSet s.decision.next s.decision.last s.decision.exhaustNotice)) := rfl
theorem exec_setSteering (tag : Byte) (body : Body SteeringFields) (s : State) :
    exec (.setSteering tag body) s = s.command 0x22#8 tag body fun f s => s.runSetSteering f := rfl
theorem exec_setGrace (tag : Byte) (body : Body Half) (s : State) :
    exec (.setGrace tag body) s = s.command 0x2D#8 tag body fun d s => s.runSetGrace d := rfl
theorem exec_readClaimStatus (tag : Byte) (body : Body Unit) (s : State) :
    exec (.readClaimStatus tag body) s = s.command 0x2E#8 tag body fun _ s => (s, .done (.claimStatus s.claims.status)) := rfl
theorem exec_engineStatus (tag : Byte) (body : Body Unit) (s : State) :
    exec (.engineStatus tag body) s = s.command 0x34#8 tag body fun _ s => (s, .done (.engine s.engine)) := rfl

/-! The commands that read. -/

/-- R155, R156: the status, field by field. -/
theorem status_eq (c : ClaimList) : c.status =
    { count := c.entries.length
      lost := c.lost
      full := decide (c.entries.length = 256)
      grace := c.grace
      monographs := c.entries.countP ClaimEntry.isMonograph
      issues := c.entries.countP fun e => !e.isMonograph
      oldestDay := match c.entries with
        | [] => none
        | e :: _ => some e.day } := by
  have full : c.full = decide (c.entries.length = 256) := beq_eq_decide ..
  rw [ClaimList.status, full]
  cases c.entries <;> rfl

/-- Settles O14: the five blocks, each giving its state back, and the bytes of IDENTIFY. -/
theorem readCommandsChangeNothing : Obligations.ReadCommandsChangeNothing := by
  intro tag s hs
  refine ⟨takes_of_block (exec_identify tag _ s) hs rfl, by decide, takes_of_block (exec_readCounters tag _ s) hs rfl,
    takes_of_block (exec_readAccession tag _ s) hs rfl, ?_, takes_of_block (exec_engineStatus tag _ s) hs rfl⟩
  have status : Takes (.readClaimStatus tag (.fields ())) s 0xAE#8 tag (.done (.claimStatus s.claims.status)) s :=
    takes_of_block (exec_readClaimStatus tag _ s) hs rfl
  rw [status_eq] at status
  exact status

/-! The accession base. -/

theorem runSetAccessionBase_outside {b : Quad} (h : b.toNat = 0 ∨ 99999999 < b.toNat) (s : State) :
    s.runSetAccessionBase b = (s, .refused .invalid .none) := by
  have outside : b.toNat < 1 ∨ Config.lastAccession < b.toNat := h.imp_left fun zero => by omega
  rw [State.runSetAccessionBase, if_pos outside, refuse]
theorem runSetAccessionBase_low {b : Quad} {m : Nat} {s : State} (positive : 1 ≤ b.toNat) (within : b.toNat ≤ 99999999)
    (last : s.decision.last = some m) (low : b.toNat ≤ m) : s.runSetAccessionBase b = (s, .refused .low .none) := by
  have inside : ¬ (b.toNat < 1 ∨ Config.lastAccession < b.toNat) := by unfold Config.lastAccession; omega
  have issued : b.toNat ≤ s.decision.last.getD 0 := by rwa [last]
  rw [State.runSetAccessionBase, if_neg inside, if_pos issued, refuse]
theorem runSetAccessionBase_taken {b : Quad} {s : State} (positive : 1 ≤ b.toNat) (within : b.toNat ≤ 99999999)
    (above : ∀ m, s.decision.last = some m → m < b.toNat) : s.runSetAccessionBase b =
      ({ s with decision := { s.decision with baseSet := true, next := some b.toNat } },
        .done (.accessionBase s.decision.next b.toNat)) := by
  have inside : ¬ (b.toNat < 1 ∨ Config.lastAccession < b.toNat) := by unfold Config.lastAccession; omega
  have unissued : ¬ b.toNat ≤ s.decision.last.getD 0 := by
    cases last : s.decision.last with
    | none => exact Nat.not_le.2 positive
    | some m => exact Nat.not_le.2 (above m last)
  rw [State.runSetAccessionBase, if_neg inside, if_neg unissued]

/-! The steering table. -/

/-- R128: a desk above 3 is none. -/
theorem desksOf_none {bs : List Byte} (h : ∃ d ∈ bs, 3 < d.toNat) : desksOf bs = none := by
  induction bs with
  | nil => simp at h
  | cons b t ih =>
    obtain ⟨d, mem, above⟩ := h
    obtain rfl | later := List.mem_cons.1 mem
    · have outside : deskOf d = none := dif_neg (by omega)
      rw [desksOf, outside]
    · rw [desksOf, ih ⟨d, later, above⟩]
      cases deskOf b <;> rfl
theorem desksOf_some {bs : List Byte} (h : ∀ d ∈ bs, d.toNat ≤ 3) :
    ∃ ds, desksOf bs = some ds ∧ ds.map Fin.val = bs.map BitVec.toNat := by
  induction bs with
  | nil => exact ⟨[], rfl, rfl⟩
  | cons b t ih =>
    obtain ⟨ds, desks, values⟩ := ih fun d mem => h d (List.mem_cons_of_mem _ mem)
    have inside : deskOf b = some ⟨b.toNat, Nat.lt_succ_of_le (h b List.mem_cons_self)⟩ := dif_pos _
    exact ⟨_ :: ds, by rw [desksOf, inside, desks], by rw [List.map_cons, values, List.map_cons]⟩
/-- An entry of a list of desks read in either form. -/
theorem getD_desks {bs : List Byte} {ds : List (Fin 4)} (values : ds.map Fin.val = bs.map BitVec.toNat) {j : Nat} (h : j < bs.length)
    (x : Fin 4) : (ds.getD j x).val = (bs.getD j 0#8).toNat := by
  have within : j < ds.length := by
    have lengths := congrArg List.length values
    rw [List.length_map, List.length_map] at lengths
    omega
  have entry := congrArg (fun ns : List Nat => ns[j]?) values
  simpa [h, within] using entry
/-- R128: what an entry of the table is after the change. -/
theorem steering_steer (d : DecisionUnit) (first : Nat) (ds : List (Fin 4)) (i : Fin 64) :
    (d.steer first ds).steering[i] = if first ≤ i.val then ds.getD (i.val - first) d.steering[i] else d.steering[i] := by
  rw [DecisionUnit.steer]
  simp
theorem steer_eq (d : DecisionUnit) (first : Nat) (ds : List (Fin 4)) :
    d.steer first ds = { d with steering := (d.steer first ds).steering } := by
  rw [DecisionUnit.steer]
theorem runSetSteering_invalid {f : SteeringFields} (h : 63 < f.first.toNat ∨ 64 < f.count.toNat ∨ 64 < f.first.toNat + f.count.toNat ∨
    f.desks.length ≠ f.count.toNat ∨ ∃ d ∈ f.desks, 3 < d.toNat) (s : State) : s.runSetSteering f = (s, .refused .invalid .none) := by
  by_cases above : ∃ d ∈ f.desks, 3 < d.toNat
  · rw [State.runSetSteering, desksOf_none above, refuse]
  · obtain ⟨ds, desks, values⟩ := desksOf_some fun d mem => Nat.le_of_not_lt fun gt => above ⟨d, mem, gt⟩
    have length : ds.length = f.desks.length := by simpa using congrArg List.length values
    have misfits : 63 < f.first.toNat ∨ 64 < f.count.toNat ∨ 64 < f.first.toNat + f.count.toNat ∨ ds.length ≠ f.count.toNat := by
      rw [length]
      simpa only [above, or_false] using h
    rw [State.runSetSteering, desks]
    exact if_pos misfits
theorem runSetSteering_taken {f : SteeringFields} {ds : List (Fin 4)} (desks : desksOf f.desks = some ds)
    (length : ds.length = f.count.toNat) (first : f.first.toNat ≤ 63) (within : f.first.toNat + f.count.toNat ≤ 64) (s : State) :
    s.runSetSteering f = ({ s with decision := { s.decision with steering := (s.decision.steer f.first.toNat ds).steering } },
      .done (.steering (s.decision.steer f.first.toNat ds).steering)) := by
  have fits : ¬ (63 < f.first.toNat ∨ 64 < f.count.toNat ∨ 64 < f.first.toNat + f.count.toNat ∨ ds.length ≠ f.count.toNat) := by omega
  rw [State.runSetSteering, desks, ← steer_eq]
  exact if_neg fits

/-- Settles O23: the day, the grace, then the accession base and the steering table, each by its checks and its effect. -/
theorem settingsAreTaken : Obligations.SettingsAreTaken := by
  refine ⟨fun tag d s hs => takes_of_block (exec_setDay tag _ s) hs rfl, fun tag d s hs => ?grace,
    fun tag b s hs outside => ?outside, fun tag b m s hs positive within last low => ?low,
    fun tag b s hs positive within above => ?base, fun tag f s hs bad => ?invalid,
    fun tag f s hs first within length desks => ?steering⟩
  case grace =>
    have clamped : clamp 0 365 d.toNat = min d.toNat 365 := Nat.zero_max _
    exact clamped ▸ takes_of_block (exec_setGrace tag _ s) hs rfl
  case outside => exact takes_of_block (exec_setAccessionBase tag _ s) hs (runSetAccessionBase_outside outside _)
  case low =>
    exact takes_of_block (exec_setAccessionBase tag _ s) hs (runSetAccessionBase_low (s := s.onLink .countFrame) positive within last low)
  case base =>
    exact takes_of_block (exec_setAccessionBase tag _ s) hs (runSetAccessionBase_taken (s := s.onLink .countFrame) positive within above)
  case invalid => exact takes_of_block (exec_setSteering tag _ s) hs (runSetSteering_invalid bad _)
  case steering =>
    obtain ⟨ds, read, values⟩ := desksOf_some desks
    have lengths : ds.length = f.desks.length := by simpa using congrArg List.length values
    refine ⟨(s.decision.steer f.first.toNat ds).steering, fun i => ?_,
      takes_of_block (exec_setSteering tag _ s) hs (runSetSteering_taken read (lengths.trans length) first within (s.onLink .countFrame))⟩
    rw [steering_steer]
    by_cases below : i.val < f.first.toNat
    · rw [if_neg (by omega), if_neg (by omega)]
    · by_cases inside : i.val < f.first.toNat + f.count.toNat
      · rw [if_pos (by omega), if_pos ⟨by omega, inside⟩]
        exact getD_desks values (by omega) _
      · rw [if_pos (by omega), if_neg (by omega), List.getD_eq_default _ _ (by omega)]

end Sys2Proof.Machine
end

section
/-! Slips (R110, R131 to R136, R140): the counting of members, what a slip does, and its SLIP SEEN event. -/

namespace Sys2Proof.Machine

/-! The counting of members. -/

/-- R110: the reasons of the slips. -/
abbrev Reason.ofSlip (r : Reason) : Prop := r = .slip ∨ r = .slipHeader ∨ r = .slipTrailer

/-- R134: what each reason changes of the counts. -/
theorem countReason_eq (c : Consignment) (normal : Bool) (r : Reason) : c.countReason normal r =
    if r = .slip ∨ r = .slipHeader ∨ r = .slipTrailer then { c with counted := c.counted - 1 }
    else if normal = true ∧ r = .matched then { c with matched := min (c.matched + 1) 65535 }
    else if normal = true ∧ r = .surplus then { c with surplus := min (c.surplus + 1) 65535 }
    else if normal = true ∧ r = .unannounced then { c with unannounced := min (c.unannounced + 1) 65535 }
    else if normal = true ∧ r = .checkFail then { c with checkFails := min (c.checkFails + 1) 65535 } else c := by
  cases r <;> cases normal <;> rfl
theorem countMember_of_member {s : State} {l : LaneId} {number : Option Nat} {c : Consignment} (opened : s.consignment l = some c)
    (member : number = some c.number) (normal : Bool) (r : Reason) :
    s.countMember l number normal r = s.setConsignment l (some (c.countReason normal r)) := by
  simp only [State.countMember, opened, member, if_true]
theorem countMember_of_stranger {s : State} {l : LaneId} {number : Option Nat}
    (h : ∀ c, s.consignment l = some c → number ≠ some c.number) (normal : Bool) (r : Reason) : s.countMember l number normal r = s := by
  unfold State.countMember
  split
  · rfl
  · next c opened => exact if_neg (h c opened)
/-- R134: the membership of a slip is taken back in every mode. -/
theorem countMember_slip {r : Reason} (h : r.ofSlip) (s : State) (l : LaneId) (number : Option Nat) (normal : Bool) :
    s.countMember l number normal r = s.countMember l number true r := by
  have same (c : Consignment) : c.countReason normal r = c.countReason true r := by
    obtain rfl | rfl | rfl := h <;> rfl
  simp only [State.countMember, same]
theorem setConsignment_setConsignment (s : State) (l : LaneId) (c d : Option Consignment) :
    (s.setConsignment l c).setConsignment l d = s.setConsignment l d := by
  simp [State.setConsignment, Vector.set_set]
/-- A consignment set forgets what was counted in it. -/
theorem setConsignment_countMember (s : State) (l : LaneId) (number : Option Nat) (normal : Bool) (r : Reason) (c : Option Consignment) :
    (s.countMember l number normal r).setConsignment l c = s.setConsignment l c := by
  unfold State.countMember
  split
  · rfl
  · split
    · exact setConsignment_setConsignment s l _ c
    · rfl

/-! The ITEM END of a slip. -/

theorem identify_slip {is : List Ident} {c : SlipContent} (h : choose is = .slip c) (s : State) (l : LaneId) :
    s.identify l is = (s, ⟨plainAnswer (slipReason (s.lane l).config.slip c.trailer) .runout, none, none, some c⟩) := by
  simp only [State.identify, h]
theorem slipReason_ofSlip (d : SlipDetection) (trailer : Bool) : (slipReason d trailer).ofSlip := by
  cases d <;> cases trailer <;> decide
/-- R110: the decision of a slip whose action is a. -/
def State.slipDecision (s : State) (l : LaneId) (r : Reason) (a : SlipAction) : Decision :=
  { s.plainDecision l .runout 0 r with notOpened := a == .notOpened }
theorem drawDecision_slip {s t : State} {l : LaneId} (mode : (t.lane l).mode = (s.lane l).mode)
    (config : (t.lane l).config = (s.lane l).config) (r : Reason) (c : SlipContent) (a : SlipAction) :
    t.drawDecision l ⟨plainAnswer r .runout, none, none, some c⟩ a = s.slipDecision l r a := by
  simp only [State.drawDecision, State.slipDecision, State.plainDecision, mode, config]
  rfl
/-- R108, R140: the decision unit takes a slip: fs is what its action files, u the state it leaves. -/
theorem decideItem_of_slip {s u : State} {l : LaneId} {v : Lane} {i : Item} {c : SlipContent} {r : Reason} {a : SlipAction}
    {fs : List Filing} (mode : v.mode = (s.lane l).mode) (config : v.config = (s.lane l).config) (slip : choose i.idents = .slip c)
    (reason : slipReason (s.lane l).config.slip c.trailer = r)
    (acts : ((s.countMember l i.consignment true r).setLane l v).slipAction l r c = ((u.setLane l v).files fs, a)) :
    (s.setLane l v).decideItem l i =
      ((u.setLane l (v.settledAs (i.observations.map HeldObservation.judged) (s.slipDecision l r a))).files
        (fs ++ [.lane l .slipSeen .event (.slip i.sq c a)])).settleReport := by
  have found : (s.setLane l v).identify l (identsOf (i.observations.map HeldObservation.judged)) =
      (s.setLane l v, ⟨plainAnswer r .runout, none, none, some c⟩) := by
    rw [show identsOf _ = i.idents from rfl, identify_slip slip, lane_setLane_same, config, reason]
  have told : (s.setLane l v).informConsignment l i.consignment ⟨plainAnswer r .runout, none, none, some c⟩ =
      ((u.setLane l v).files fs, a) := by
    have counted := countMember_slip (reason ▸ slipReason_ofSlip _ _ : r.ofSlip) (s.setLane l v) l i.consignment
      (decide ((s.setLane l v |>.lane l).mode = .normal))
    simp only [State.informConsignment, plainAnswer, counted, countMember_setLane]
    exact acts
  have drawn := drawDecision_slip (s := s) (t := (u.setLane l v).files fs) (l := l) (by simp [mode]) (by simp [config]) r c a
  simp only [State.decideItem, found, told, drawn]
  rw [onLane_setLane_files fs rfl, files_append]
  rfl
/-- R90, R110: the ITEM END of a slip. -/
theorem decides_of_slip {s u : State} {l : LaneId} {sq : Seq} {o : Option Observation} {i : Item} {c : SlipContent} {r : Reason}
    {a : SlipAction} {fs : List Filing} (h : s.reads l sq o i) (slip : choose (i.ended o).idents = .slip c)
    (reason : slipReason (s.lane l).config.slip c.trailer = r)
    (acts : ∀ v : Lane, v.mode = (s.lane l).mode →
      ((s.countMember l i.consignment true r).setLane l v).slipAction l r c = ((u.setLane l v).files fs, a)) :
    Decides s l sq o (s.slipDecision l r a) (fs ++ [.lane l .slipSeen .event (.slip sq c a)]) u := by
  refine happens_of_done ((exec_itemEnd_of_reads h).trans (congrArg State.done ?_))
  obtain ⟨active, accounts, reads, only, number, valid⟩ := h
  obtain ⟨sq_eq, consignment⟩ := ended_fields i o
  have test : (s.lane l).mode ≠ .test := fun e => by simp [e, Machine.accounts] at accounts
  have checked : r ≠ .checkFail := by
    obtain rfl | rfl | rfl := (reason ▸ slipReason_ofSlip _ _ : r.ofSlip) <;> decide
  have settled := settledAs_eq only o (s.slipDecision l r a)
  rw [show (s.slipDecision l r a).reason = some r from rfl, countReason_of_ne checked] at settled
  have acts' := acts ((s.lane l).heard.ended o) rfl
  rw [← consignment] at acts'
  rw [decideItem_of_slip (v := (s.lane l).heard.ended o) rfl rfl slip reason acts', feedTest_eq, settled, sq_eq, number]
  rw [lane_settleReport, lane_files, lane_setLane_same]
  exact test

/-! What a slip does. -/

/-- R136: the filing of a close: the summary of the consignment that was open. -/
def State.summaryFilings (s : State) (l : LaneId) (p : Option Consignment) (cause : CloseCause) : List Filing :=
  p.toList.map fun x => .item (.summary ⟨l, x, cause, s.table.today, x.overDeclared⟩)
/-- R136: a slip that closes the consignment its membership is taken from. -/
theorem closeConsignment_slip (s : State) (l : LaneId) (v : Lane) (number : Option Nat) (r : Reason) (cause : CloseCause) :
    ((s.countMember l number true r).setLane l v).closeConsignment l cause =
      ((s.setConsignment l none).setLane l v).files (s.summaryFilings l ((s.countMember l number true r).consignment l) cause) := by
  rw [State.summaryFilings, ← (agrees_countMember s l number true r).2.1, ← setConsignment_countMember s l number true r none]
  exact closeConsignment_eq _ l cause
/-- R185: a record filled into its reserved slot leaves as many slots used. -/
theorem usedItem_file_item {s : State} {x : ReportRecord} (item : x.isItem = true) (reserved : 1 ≤ s.report.reservedItem) :
    (s.file (.item x)).report.usedItem = s.report.usedItem := by
  simp only [State.file, ReportUnit.usedItem, ReportUnit.filledItem, fill_fields, List.countP_append, List.countP_singleton, item, if_true]
  omega
theorem usedItem_summaryFilings {s t : State} {l : LaneId} {p : Option Consignment} (h : p = none ∨ 1 ≤ t.report.reservedItem)
    (cause : CloseCause) : (t.files (s.summaryFilings l p cause)).report.usedItem = t.report.usedItem := by
  cases p with
  | none => rfl
  | some x => exact usedItem_file_item rfl (h.resolve_left nofun)

/-- R130: the consignment that a header slip opens on a lane. -/
def State.newConsignment (s : State) (l : LaneId) (c : SlipContent) : Consignment :=
  ⟨s.consign.nextNumber, c.publisher, c.declared, 0, 0, 0, 0, 0, s.table.today, decide ((s.lane l).mode = .dry)⟩
/-- R130, R132: the state with a consignment opened, but for its item slot. -/
def State.opening (s : State) (l : LaneId) (p : Consignment) : State :=
  { s with consign := { (s.setConsignment l (some p)).consign with nextNumber := nextConsignment s.consign.nextNumber } }
theorem openConsignment_room {s : State} (room : s.report.usedItem < 496) (l : LaneId) (c : SlipContent) : s.openConsignment l c =
    ((s.opening l (s.newConsignment l c)).files [.reserve], .opened s.consign.nextNumber) := by
  rw [State.openConsignment, if_pos (by exact decide_eq_true room)]
  rfl
theorem openConsignment_full {s : State} (full : ¬ s.report.usedItem < 496) (l : LaneId) (c : SlipContent) :
    s.openConsignment l c = (s, .notOpened) := by
  rw [State.openConsignment, if_neg (by exact fun room => full (of_decide_eq_true room))]
theorem opening_files (s : State) (l : LaneId) (p : Consignment) (fs : List Filing) : (s.files fs).opening l p = (s.opening l p).files fs := by
  rw [files_eq_of (s := s) (t := s.opening l p) fs rfl rfl rfl fun _ => rfl, files_eq s fs]
  rfl
theorem opening_closed (s : State) (l : LaneId) (v : Lane) (c : Option Consignment) (p : Consignment) :
    ((s.setConsignment l c).setLane l v).opening l p = (s.opening l p).setLane l v := by
  simp [State.opening, State.setConsignment, State.setLane, Vector.set_set]

/-- R131, R132: a header slip that finds a slot. -/
theorem slipAction_opened {s : State} {l : LaneId} {v : Lane} {number : Option Nat} (mode : v.mode = (s.lane l).mode)
    (slot : (s.countMember l number true .slipHeader).consignment l = none ∨ 1 ≤ s.report.reservedItem)
    (room : s.report.usedItem < 496) (c : SlipContent) :
    ((s.countMember l number true .slipHeader).setLane l v).slipAction l .slipHeader c =
      (((s.opening l (s.newConsignment l c)).setLane l v).files
        (s.summaryFilings l ((s.countMember l number true .slipHeader).consignment l) .unterminated ++ [.reserve]),
        .opened s.consign.nextNumber) := by
  rw [State.slipAction, closeConsignment_slip]
  generalize (s.countMember l number true .slipHeader).consignment l = p at *
  have used := usedItem_summaryFilings (s := s) (t := (s.setConsignment l none).setLane l v) (l := l) slot .unterminated
  have parcel : (((s.setConsignment l none).setLane l v).files (s.summaryFilings l p .unterminated)).newConsignment l c =
      s.newConsignment l c := by
    simp [State.newConsignment, mode]
  rw [openConsignment_room (used.trans_lt room), parcel, opening_files, opening_closed, files_append]
  simp
/-- R131, R132: a header slip that finds no slot. -/
theorem slipAction_notOpened {s : State} {l : LaneId} {v : Lane} {number : Option Nat}
    (slot : (s.countMember l number true .slipHeader).consignment l = none ∨ 1 ≤ s.report.reservedItem)
    (full : ¬ s.report.usedItem < 496) (c : SlipContent) :
    ((s.countMember l number true .slipHeader).setLane l v).slipAction l .slipHeader c =
      (((s.setConsignment l none).setLane l v).files
        (s.summaryFilings l ((s.countMember l number true .slipHeader).consignment l) .unterminated), .notOpened) := by
  rw [State.slipAction, closeConsignment_slip]
  have used := usedItem_summaryFilings (s := s) (t := (s.setConsignment l none).setLane l v) (l := l) slot .unterminated
  exact openConsignment_full (fun room => full (used ▸ room)) l c
/-- R135: the cause a trailer slip closes a consignment with. -/
def SlipContent.cause (c : SlipContent) (x : Consignment) : CloseCause :=
  if c.publisher = x.publisher then .trailer else .trailerMismatch
/-- R135: a trailer slip that closes the open consignment. -/
theorem slipAction_closed {s : State} {l : LaneId} {v : Lane} {number : Option Nat} {x : Consignment}
    (opened : (s.countMember l number true .slipTrailer).consignment l = some x) (c : SlipContent) :
    ((s.countMember l number true .slipTrailer).setLane l v).slipAction l .slipTrailer c =
      (((s.setConsignment l none).setLane l v).files (s.summaryFilings l (some x) (c.cause x)), .closed x.number (c.cause x)) := by
  have opened' : ((s.countMember l number true .slipTrailer).setLane l v).consignment l = some x := opened
  simp only [State.slipAction, opened']
  rw [← opened, ← closeConsignment_slip]
  rfl
/-- R135: a trailer slip that finds no consignment open. -/
theorem slipAction_stray {s : State} {l : LaneId} {v : Lane} {number : Option Nat} (closed : s.consignment l = none) (c : SlipContent) :
    ((s.countMember l number true .slipTrailer).setLane l v).slipAction l .slipTrailer c =
      (((s.strayTrailer l).setLane l v).files [], .noConsignment) := by
  have closed' : (s.setLane l v).consignment l = none := closed
  rw [countMember_of_stranger fun x opened => nomatch closed.symm.trans opened]
  simp only [State.slipAction, closed']
  rfl

/-- Settles O49: the counting, then a plain slip, a header, a trailer of an open consignment, and a stray trailer. -/
theorem slipsOpenAndCloseConsignments : Obligations.SlipsOpenAndCloseConsignments := by
  refine ⟨fun s l number normal r c opened member => ?member, fun s l number normal r stranger => countMember_of_stranger stranger normal r,
    fun s l sq o i c reads slip detection => ?plain, fun s w l sq o i c opened room reads slip on header w_eq slot room_iff opened_eq => ?header,
    fun s w l sq o i c x cause reads slip detection trailer w_eq opened cause_eq => ?trailer,
    fun s l sq o i c reads slip detection trailer closed => ?stray⟩
  case member => rw [countMember_of_member opened member, countReason_eq]
  case plain =>
    have reason : slipReason (s.lane l).config.slip c.trailer = .slip := by
      obtain off | ⟨header, trailer⟩ := detection
      · rw [off]; rfl
      · rw [header, trailer]; rfl
    have decides := decides_of_slip (u := s.countMember l i.consignment true .slip) (fs := []) reads slip reason fun _ _ => rfl
    rw [countMember_eq (s := s) rfl] at decides
    exact decides
  case header =>
    have reason : slipReason (s.lane l).config.slip c.trailer = .slipHeader := by
      rw [header]
      cases detection : (s.lane l).config.slip with
      | off => exact absurd detection on
      | header | headerAndTrailer => rfl
    subst w_eq opened_eq
    cases room with
    | true =>
      have decides := decides_of_slip reads slip reason fun v mode => slipAction_opened mode slot (room_iff.1 rfl) c
      simp only [if_true, Bool.not_true]
      exact decides
    | false =>
      have full : ¬ s.report.usedItem < 496 := fun room => nomatch room_iff.2 room
      have decides := decides_of_slip reads slip reason fun v _ => slipAction_notOpened slot full c
      simp only [Bool.false_eq_true, if_false, List.append_nil, Bool.not_false]
      exact decides
  case trailer =>
    have reason : slipReason (s.lane l).config.slip c.trailer = .slipTrailer := by rw [detection, trailer]; rfl
    have closes : c.cause x = cause := by
      obtain ⟨same, rfl⟩ | ⟨other, rfl⟩ := cause_eq
      · exact if_pos same
      · exact if_neg other
    subst w_eq closes
    have decides := decides_of_slip reads slip reason fun _ _ => slipAction_closed opened c
    exact decides
  case stray =>
    have reason : slipReason (s.lane l).config.slip c.trailer = .slipTrailer := by rw [detection, trailer]; rfl
    have decides := decides_of_slip reads slip reason fun _ _ => slipAction_stray closed c
    rw [State.strayTrailer] at decides
    refine ⟨s.consign.stray.set l.val (bump s.consign.stray[l]) l.isLt, by simp, fun k other => ?_, decides⟩
    exact Vector.getElem_set_ne _ _ fun same => other (Fin.ext same.symm)

end Sys2Proof.Machine
end

section
/-! CLOSE CONSIGNMENT (R136, R138). -/

namespace Sys2Proof.Machine

theorem exec_closeConsignment (tag : Byte) (body : Body Byte) (s : State) :
    exec (.closeConsignment tag body) s = s.command 0x28#8 tag body fun b s => s.runCloseConsignment b := rfl
theorem runCloseConsignment_closed {s : State} {b : Byte} {l : LaneId} (lane : b.toNat = l.val) (closed : s.consignment l = none) :
    s.runCloseConsignment b = (s, .refused .badState .none) := by
  refine (withLane_some lane _ _).trans ?_
  rw [closed]
  rfl
theorem runCloseConsignment_open {s : State} {b : Byte} {l : LaneId} {c : Consignment} (lane : b.toNat = l.val)
    (opened : s.consignment l = some c) :
    s.runCloseConsignment b = (s.closeConsignment l .command, .done (.consignmentClosed c c.overDeclared)) := by
  refine (withLane_some lane _ _).trans ?_
  rw [opened]
theorem closeConsignment_countFrame (s : State) (l : LaneId) (cause : CloseCause) :
    (s.onLink .countFrame).closeConsignment l cause = (s.closeConsignment l cause).onLink .countFrame := by
  rw [closeConsignment_eq, closeConsignment_eq, ← files_countFrame]
  rfl

/-- Settles O28: a lane number outside, a lane with no consignment open, a lane with one. -/
theorem closeConsignmentFillsTheSummary : Obligations.CloseConsignmentFillsTheSummary := by
  refine ⟨fun tag b s hs out => refuses_outside (exec_closeConsignment tag _ s) (fun _ => rfl) hs out,
    fun tag b l s hs lane closed => ?closed, fun tag b l c s hs lane opened => ?opened⟩
  case closed =>
    exact takes_of_block (exec_closeConsignment tag _ s) hs (runCloseConsignment_closed (s := s.onLink .countFrame) lane closed)
  case opened =>
    have summary := closeConsignment_eq s l .command
    rw [opened] at summary
    refine takes_of_block (exec_closeConsignment tag _ s) hs ((runCloseConsignment_open (s := s.onLink .countFrame) lane opened).trans ?_)
    rw [closeConsignment_countFrame, summary]
    rfl

end Sys2Proof.Machine
end

section
/-! The item slots of the report queue (R85, R137, R185): how many each lane is owed, and what leaves them as they are. -/

namespace Sys2Proof.Machine

/-! The slots that are owed. -/

/-- R137, R185: the item slots owed to a lane, one for each of its items and one for its open consignment. -/
def State.slotsOf (s : State) (l : LaneId) : Nat := (s.lane l).slotsHeld + (s.consignment l).toList.length
/-- R185: the item slots owed to all lanes. -/
def State.slots (s : State) : Nat := ∑ l : LaneId, s.slotsOf l

theorem sum_toList {α : Type} {n : Nat} (v : Vector α n) (f : α → Nat) : (v.toList.map f).sum = ∑ i : Fin n, f v[i] := by
  have elements : v.toList = List.ofFn fun i : Fin n => v[i] := List.ext_getElem (by simp) fun k _ _ => by simp
  rw [elements, List.map_ofFn, List.sum_ofFn]
  rfl
theorem countP_isSome {α : Type} (os : List (Option α)) : os.countP Option.isSome = (os.map fun o => o.toList.length).sum := by
  induction os with
  | nil => rfl
  | cons o os ih => cases o <;> simp [ih, Nat.add_comm]
/-- R185: the slots owed are those of the items and those of the open consignments. -/
theorem slots_eq (s : State) : s.slots = (s.lanes.toList.map Lane.slotsHeld).sum + s.openConsignments := by
  rw [State.openConsignments, countP_isSome, sum_toList, sum_toList, ← Finset.sum_add_distrib]
  rfl
/-- One lane is owed more, or fewer, and the others as many. -/
theorem slots_of_one {s t : State} {l : LaneId} (others : ∀ k, k ≠ l → t.slotsOf k = s.slotsOf k) {n m : Nat}
    (here : t.slotsOf l + n = s.slotsOf l + m) : t.slots + n = s.slots + m := by
  have rest : ∑ k ∈ Finset.univ.erase l, t.slotsOf k = ∑ k ∈ Finset.univ.erase l, s.slotsOf k :=
    Finset.sum_congr rfl fun k other => others k (Finset.ne_of_mem_erase other)
  rw [State.slots, State.slots, ← Finset.add_sum_erase _ _ (Finset.mem_univ l), ← Finset.add_sum_erase _ _ (Finset.mem_univ l), rest]
  omega

/-! The laws of the report queue. -/

/-- R87, R185: what a lane knows of report space once the news on its way has reached it. -/
def Lane.told (v : Lane) : Bool := v.news.getLastD v.noSpace
/-- R85: a lane without items. -/
def Lane.vacant (v : Lane) : Prop := v.queue = [] ∧ v.held = none
/-- R185: the two conditions as the unreserved item slots give them. -/
def ReportUnit.spaced (r : ReportUnit) : Prop :=
  r.spaceLow = decide (r.unreserved < Config.lowSpace) ∧ r.noSpace = decide (r.unreserved = 0)
/-- R185: the laws of the report queue but for its conditions, while n records are still to be filed. -/
structure State.booked (s : State) (n : Nat) : Prop where
  used : s.report.usedItem ≤ Config.itemSlots
  others : s.report.usedNonItem ≤ Config.nonItemSlots
  reserved : s.report.reservedItem = s.slots + n
  engine : s.report.reservedNonItem = s.engine.toList.length
  idle : ∀ l : LaneId, (s.lane l).state = .disabled → (s.lane l).vacant
theorem reportWf_iff (s : State) : s.reportWf ↔ s.booked 0 ∧ s.report.spaced := by
  constructor
  · rintro ⟨used, others, reserved, engine, low, no, idle⟩
    exact ⟨⟨used, others, reserved.trans (slots_eq s).symm, engine, idle⟩, low, no⟩
  · rintro ⟨⟨used, others, reserved, engine, idle⟩, low, no⟩
    exact ⟨used, others, reserved.trans (slots_eq s), engine, low, no, idle⟩
/-- R130: a consignment within its range, open on a lane in service. -/
def Consignment.standsAt (c : Consignment) (v : Lane) : Prop :=
  (1 ≤ c.number ∧ c.number ≤ 65535) ∧ accounts v.mode = true ∧ (v.state = .silent ∨ v.state = .active)
theorem consignWf_iff (s : State) : s.consignWf ↔
    (1 ≤ s.consign.nextNumber ∧ s.consign.nextNumber ≤ 65535) ∧ ∀ l : LaneId, ∀ c ∈ s.consignment l, c.standsAt (s.lane l) := Iff.rfl

/-! What leaves the slots, the consignments and the lanes' knowledge as they are. -/

/-- From v to w a lane owes as many records and knows as much of report space, and it stays in service when it was. -/
structure Lane.alike (v w : Lane) : Prop where
  mode : w.mode = v.mode
  queue : w.queue.length = v.queue.length
  held : w.held.toList.length = v.held.toList.length
  told : w.told = v.told
  state : w.state = v.state ∨ w.state = .silent ∨ w.state = .active

theorem alike_refl (v : Lane) : v.alike v := ⟨rfl, rfl, rfl, rfl, .inl rfl⟩
theorem alike_trans {u v w : Lane} (h : u.alike v) (h' : v.alike w) : u.alike w := by
  refine ⟨h'.mode.trans h.mode, h'.queue.trans h.queue, h'.held.trans h.held, h'.told.trans h.told, ?_⟩
  obtain same | service := h'.state
  · rw [same]
    exact h.state
  · exact .inr service
theorem slotsHeld_alike {v w : Lane} (h : v.alike w) : w.slotsHeld = v.slotsHeld := by
  simp only [Lane.slotsHeld, h.mode, h.queue, h.held]
theorem vacant_alike {v w : Lane} (h : v.alike w) (empty : v.vacant) : w.vacant := by
  obtain ⟨queue, held⟩ := empty
  have length := h.queue
  have length' := h.held
  rw [queue] at length
  rw [held] at length'
  exact ⟨List.length_eq_zero_iff.mp length, by simpa using length'⟩
/-- From r to q the report queue is changed by records that need no item slot, and stays within its non-item slots. -/
structure ReportUnit.alike (r q : ReportUnit) : Prop where
  reservedItem : q.reservedItem = r.reservedItem
  filledItem : q.filledItem = r.filledItem
  reservedNonItem : q.reservedNonItem = r.reservedNonItem
  noSpace : q.noSpace = r.noSpace
  spaceLow : q.spaceLow = r.spaceLow
  others : r.usedNonItem ≤ Config.nonItemSlots → q.usedNonItem ≤ Config.nonItemSlots

theorem usedItem_alike {r q : ReportUnit} (h : r.alike q) : q.usedItem = r.usedItem := by
  simp only [ReportUnit.usedItem, h.reservedItem, h.filledItem]
/-- R185: the two conditions stand while as many slots are used. -/
theorem spaced_of_used {r q : ReportUnit} (used : q.usedItem = r.usedItem) (low : q.spaceLow = r.spaceLow) (no : q.noSpace = r.noSpace)
    (spaced : r.spaced) : q.spaced := by
  unfold ReportUnit.spaced ReportUnit.unreserved
  rw [used, low, no]
  exact spaced
theorem spaced_alike {r q : ReportUnit} (h : r.alike q) (spaced : r.spaced) : q.spaced :=
  spaced_of_used (usedItem_alike h) h.spaceLow h.noSpace spaced
/-- From s to t every item slot, every consignment's number and what the lanes know of report space stand. -/
structure State.alike (s t : State) : Prop where
  lanes : ∀ l, (s.lane l).alike (t.lane l)
  numbers : ∀ l, (t.consignment l).map (·.number) = (s.consignment l).map (·.number)
  next : t.consign.nextNumber = s.consign.nextNumber
  engine : t.engine.toList.length = s.engine.toList.length
  report : s.report.alike t.report

theorem stateAlike_trans {s t u : State} (h : s.alike t) (h' : t.alike u) : s.alike u where
  lanes l := alike_trans (h.lanes l) (h'.lanes l)
  numbers l := (h'.numbers l).trans (h.numbers l)
  next := h'.next.trans h.next
  engine := h'.engine.trans h.engine
  report :=
    ⟨h'.report.reservedItem.trans h.report.reservedItem, h'.report.filledItem.trans h.report.filledItem,
      h'.report.reservedNonItem.trans h.report.reservedNonItem, h'.report.noSpace.trans h.report.noSpace,
      h'.report.spaceLow.trans h.report.spaceLow, h'.report.others ∘ h.report.others⟩

end Sys2Proof.Machine
end

section
/-! What the operations beside the items and the consignments leave alone of the report space (R20, R63, R66, R74, R78, R156, R173 to R178,
R189). -/

namespace Sys2Proof.Machine

theorem stateAlike_of_report {s t : State} (lanes : t.lanes = s.lanes) (consign : t.consign = s.consign) (engine : t.engine = s.engine)
    (report : s.report.alike t.report) : s.alike t where
  lanes l := lane_of_lanes lanes l ▸ alike_refl _
  numbers l := congrArg _ (consignment_of_consign consign l)
  next := by rw [consign]
  engine := by rw [engine]
  report := report
theorem reportAlike_refl (r : ReportUnit) : r.alike r := ⟨rfl, rfl, rfl, rfl, rfl, id⟩
theorem stateAlike_of_eq {s t : State} (lanes : t.lanes = s.lanes) (consign : t.consign = s.consign) (engine : t.engine = s.engine)
    (report : t.report = s.report) : s.alike t :=
  stateAlike_of_report lanes consign engine (report ▸ reportAlike_refl _)
theorem stateAlike_refl (s : State) : s.alike s := stateAlike_of_eq rfl rfl rfl rfl
theorem stateAlike_ite {s t u : State} (c : Prop) [Decidable c] (ht : s.alike t) (hu : s.alike u) : s.alike (if c then t else u) := by
  split
  · exact ht
  · exact hu
theorem foldl_stateAlike {α : Type} {f : State → α → State} (step : ∀ (s : State) (a : α), s.alike (f s a)) (xs : List α)
    (s : State) : s.alike (xs.foldl f s) :=
  foldl_keeps (P := s.alike) (fun u a h => stateAlike_trans h (step u a)) xs s (stateAlike_refl s)

/-! The report unit. -/

theorem reportAlike_sendAll (r : ReportUnit) : r.alike r.sendAll := by
  rw [sendAll_eq]
  exact ⟨rfl, rfl, rfl, rfl, rfl, id⟩
/-- R189: a notice needs a free non-item slot. -/
theorem stateAlike_ask (s : State) (a : Source) (c : NoticeCondition) (e : Edge) (d : Detail) : s.alike (s.ask a c e d) := by
  refine stateAlike_of_report (by simp) (by simp) (by simp) ?_
  unfold State.ask
  split
  · next room =>
    have room : s.report.usedNonItem < Config.nonItemSlots := of_decide_eq_true room
    rw [ReportUnit.usedNonItem, ReportUnit.filledNonItem] at room
    rw [onReport_fields s _ |>.2.2.1, sendAll_eq]
    refine ⟨rfl, ?_, rfl, rfl, rfl, fun _ => ?_⟩
    · simp [ReportUnit.filledItem, ReportRecord.isItem]
    · rw [ReportUnit.usedNonItem, ReportUnit.filledNonItem, List.countP_append]
      exact room
  · exact reportAlike_refl _
theorem stateAlike_laneNotice (s : State) (l : LaneId) (c : NoticeCondition) (e : Edge) (d : Detail) : s.alike (s.laneNotice l c e d) :=
  stateAlike_ite _ (stateAlike_ask s _ c e d) (stateAlike_refl s)
theorem stateAlike_deviceNotice (s : State) (c : NoticeCondition) (e : Edge) (d : Detail) : s.alike (s.deviceNotice c e d) :=
  stateAlike_ite _ (stateAlike_ask s _ c e d) (stateAlike_refl s)
theorem stateAlike_levelNotice (s : State) (l : LaneId) (v : LaneLevel) : s.alike (s.levelNotice l v) :=
  stateAlike_ite _ (stateAlike_refl s) (stateAlike_laneNotice s l _ _ _)
theorem stateAlike_grant (s : State) : s.alike s.grant :=
  stateAlike_of_eq (by simp) (by simp) (by simp) (by simp)

/-! The Title Table, the claim list and the decision. -/

theorem stateAlike_withClaims (s : State) (c : ClaimList) : s.alike (s.withClaims c) :=
  stateAlike_ite _ (stateAlike_of_eq rfl rfl rfl rfl)
    (stateAlike_trans (t := { s with claims := c }) (stateAlike_of_eq rfl rfl rfl rfl) (stateAlike_deviceNotice _ _ _ _))
theorem stateAlike_withTable (s : State) (t : TitleTable) : s.alike (s.withTable t) :=
  stateAlike_ite _ (stateAlike_of_eq rfl rfl rfl rfl)
    (stateAlike_trans (t := { s with table := t }) (stateAlike_of_eq rfl rfl rfl rfl) (stateAlike_deviceNotice _ _ _ _))
theorem stateAlike_putRecord (s : State) (n : Nat) (r : TitleRecord) : s.alike (s.putRecord n r) :=
  stateAlike_of_eq rfl rfl rfl rfl
theorem stateAlike_markTaken (s : State) (e : ClaimEntry) : s.alike (s.markTaken e) := by
  unfold State.markTaken
  split
  · split
    · exact stateAlike_putRecord s _ _
    · exact stateAlike_refl s
  · exact stateAlike_refl s
theorem stateAlike_satisfyMonograph (s : State) (k : Key) (c : ClaimState) : s.alike (s.satisfyMonograph k c).1 := by
  cases c with
  | listed => exact stateAlike_withClaims s _
  | taken | owed | none => exact stateAlike_refl s
/-- R45 to R54: an arrival only asks the claim list. -/
theorem stateAlike_asksRun {a b : ArrivalStep} {k : Key} {q : Nat} (h : a.asksRun k q b) : a.state.alike b.state := by
  obtain ⟨rs, state, -⟩ := h
  rw [state]
  exact foldl_stateAlike (fun u r => stateAlike_withClaims u _) rs _
theorem stateAlike_commitMonograph (s : State) (n : Nat) (r : TitleRecord) (m : MonographPart) : s.alike (s.commitMonograph n r m).1 := by
  unfold State.commitMonograph
  dsimp only
  split
  · exact stateAlike_trans (stateAlike_satisfyMonograph s r.key m.claim) (stateAlike_putRecord _ _ _)
  · exact stateAlike_putRecord s _ _
theorem stateAlike_commitSerial (s : State) (slot : Nat) (r : TitleRecord) (p : SerialPart) (n span : Nat) :
    s.alike (s.commitSerial slot r p n span).1 :=
  stateAlike_trans (stateAlike_asksRun (commit_asksRun ⟨s, p, .none⟩ r.key r.q n span)) (stateAlike_putRecord _ _ _)
theorem stateAlike_commitIf {s : State} {commit : State × Indications} (normal available : Bool) (a : Answer)
    (h : s.alike commit.1) : s.alike (s.commitIf normal available a commit).1 := by
  unfold State.commitIf
  split
  · exact h
  · exact stateAlike_refl s
theorem stateAlike_serialArrival (s : State) (slot : Nat) (r : TitleRecord) (p : SerialPart) (e : Option Enumeration)
    (normal available : Bool) : s.alike (s.serialArrival slot r p e normal available).1 := by
  unfold State.serialArrival
  split
  · exact stateAlike_refl s
  · dsimp only
    split
    · exact stateAlike_refl s
    · exact stateAlike_commitIf _ _ _ (stateAlike_commitSerial s slot r p _ _)
theorem stateAlike_arrival (s : State) (k : Key) (e : Option Enumeration) (normal available : Bool) :
    s.alike (s.arrival k e normal available).1 := by
  unfold State.arrival
  split
  · exact stateAlike_refl s
  · split
    · exact stateAlike_refl s
    · split
      · exact stateAlike_commitIf _ _ _ (stateAlike_commitMonograph s _ _ _)
      · exact stateAlike_serialArrival s _ _ _ _ _ _
theorem stateAlike_decideKey (s : State) (k : Key) (e : Option Enumeration) (normal : Bool) : s.alike (s.decideKey k e normal).1 := by
  unfold State.decideKey
  generalize (if normal = true then s.decision.available else true) = available
  dsimp only
  split
  · exact stateAlike_trans (stateAlike_arrival s k e normal _) (stateAlike_of_eq rfl rfl rfl rfl)
  · exact stateAlike_arrival s k e normal _
theorem stateAlike_identify (s : State) (l : LaneId) (is : List Ident) : s.alike (s.identify l is).1 := by
  unfold State.identify
  split
  · exact stateAlike_refl s
  · exact stateAlike_refl s
  · exact stateAlike_decideKey s _ _ _
theorem stateAlike_exhaustion (s : State) (l : LaneId) (sq : Seq) : s.alike (s.exhaustion l sq) :=
  stateAlike_ite _ (stateAlike_refl s) (stateAlike_trans (t := { s with decision := { s.decision with exhaustNotice := true } })
    (stateAlike_of_eq rfl rfl rfl rfl) (stateAlike_deviceNotice _ _ _ _))

/-! The members of a consignment (R133, R134). -/

/-- A consignment keeps its number when its counts change. -/
theorem stateAlike_counted {s : State} {l : LaneId} {c d : Consignment} (opened : s.consignment l = some c) (number : d.number = c.number) :
    s.alike (s.setConsignment l (some d)) where
  lanes _ := alike_refl _
  numbers k := by
    by_cases same : k = l
    · subst same
      simp [opened, number]
    · rw [consignment_setConsignment_other s _ same]
  next := rfl
  engine := rfl
  report := reportAlike_refl _
theorem number_countReason (c : Consignment) (normal : Bool) (r : Reason) : (c.countReason normal r).number = c.number := by
  rw [countReason_eq]
  repeat' split
  all_goals rfl
theorem stateAlike_countMember (s : State) (l : LaneId) (number : Option Nat) (normal : Bool) (r : Reason) :
    s.alike (s.countMember l number normal r) := by
  unfold State.countMember
  split
  · exact stateAlike_refl s
  · next c opened => exact stateAlike_ite _ (stateAlike_counted opened (number_countReason c normal r)) (stateAlike_refl s)
theorem stateAlike_joinConsignment (s : State) (l : LaneId) : s.alike (s.joinConsignment l).1 := by
  unfold State.joinConsignment
  split
  · exact stateAlike_refl s
  · next c opened => exact stateAlike_counted opened rfl
theorem stateAlike_strayTrailer (s : State) (l : LaneId) : s.alike (s.strayTrailer l) where
  lanes _ := alike_refl _
  numbers _ := rfl
  next := rfl
  engine := rfl
  report := reportAlike_refl _
theorem stateAlike_clearStray (s : State) (l : LaneId) : s.alike (s.clearStray l) where
  lanes _ := alike_refl _
  numbers _ := rfl
  next := rfl
  engine := rfl
  report := reportAlike_refl _

/-! The lanes. -/

theorem stateAlike_setLane {s : State} {l : LaneId} {w : Lane} (h : (s.lane l).alike w) : s.alike (s.setLane l w) where
  lanes k := by
    by_cases same : k = l
    · rw [same, lane_setLane_same]
      exact h
    · rw [lane_setLane_other s w same]
      exact alike_refl _
  numbers _ := rfl
  next := rfl
  engine := rfl
  report := reportAlike_refl _
theorem stateAlike_onLane {s : State} {l : LaneId} {f : Lane → Lane} (h : (s.lane l).alike (f (s.lane l))) : s.alike (s.onLane l f) :=
  stateAlike_setLane h
theorem alike_produce {v w : Lane} (h : v.alike w) (r : LaneOut) : v.alike (w.produce r) := by
  rw [produce_eq]
  exact ⟨h.mode, h.queue, h.held, h.told, h.state⟩
theorem alike_toldHold (v : Lane) : v.alike v.toldHold := by
  unfold Lane.toldHold
  split
  · exact alike_refl v
  · refine alike_produce ?_ _
    exact ⟨rfl, rfl, rfl, rfl, .inl rfl⟩
theorem alike_following (v : Lane) : v.alike v.following := by
  unfold Lane.following
  split
  · exact alike_refl v
  · refine alike_produce ?_ _
    exact ⟨rfl, rfl, rfl, rfl, .inl rfl⟩
theorem alike_sent (v : Lane) : v.alike v.sent := by
  unfold Lane.sent
  split
  · exact alike_refl v
  · exact ⟨rfl, rfl, rfl, rfl, .inl rfl⟩
  · exact ⟨rfl, rfl, rfl, rfl, .inl rfl⟩
theorem alike_onReading (v : Lane) (f : Item → Item) : v.alike (v.onReading f) :=
  ⟨rfl, List.length_map _, rfl, rfl, .inl rfl⟩
theorem alike_testItems (n : Nat) (v : Lane) : v.alike (v.testItems n) := by
  induction n generalizing v with
  | zero => exact alike_refl v
  | succ n ih =>
    unfold Lane.testItems
    split
    · have sent : v.alike v.testItem := by
        refine alike_produce ?_ _
        exact ⟨rfl, rfl, rfl, rfl, .inl rfl⟩
      exact alike_trans sent (ih v.testItem)
    · exact alike_refl v

/-- R87, R88: the hold flag and its notice. -/
theorem stateAlike_reevaluate (s : State) (l : LaneId) : s.alike (s.reevaluate l) := by
  unfold State.reevaluate
  dsimp only
  split
  · exact stateAlike_refl s
  · refine stateAlike_trans (stateAlike_onLane ?_) (stateAlike_laneNotice _ l _ _ _)
    refine alike_produce ?_ _
    exact ⟨rfl, rfl, rfl, rfl, .inl rfl⟩
theorem stateAlike_counters (s : State) (l : LaneId) (f : LaneCounters → LaneCounters) : s.alike (s.onCounters l f) :=
  stateAlike_onLane ⟨rfl, rfl, rfl, rfl, .inl rfl⟩
theorem stateAlike_send (s : State) (l : LaneId) (r : LaneOut) : s.alike (s.send l r) := stateAlike_onLane (alike_produce (alike_refl _) r)
theorem stateAlike_noteBelt (s : State) (l : LaneId) (b : Belt) (d : Diverter) : s.alike (s.noteBelt l b d) :=
  stateAlike_onLane ⟨rfl, rfl, rfl, rfl, .inl rfl⟩
theorem stateAlike_restartSilence (s : State) (l : LaneId) : s.alike (s.restartSilence l) :=
  stateAlike_onLane ⟨rfl, rfl, rfl, rfl, .inl rfl⟩
theorem stateAlike_feedTest (s : State) (l : LaneId) : s.alike (s.feedTest l) := by
  refine stateAlike_onLane ?_
  split
  · exact alike_testItems _ _
  · exact alike_refl _
theorem stateAlike_reportOf (s : State) (l : LaneId) (r : StationRecord) : s.alike (s.reportOf l r) := by
  cases r with
  | heartbeat b d => exact stateAlike_noteBelt s l b d
  | itemBegin | observation | itemEnd | atGate | confirm => exact stateAlike_refl s
theorem stateAlike_echo (s : State) (l : LaneId) (r : StationRecord) : s.alike (s.echo l r) :=
  stateAlike_trans (stateAlike_onLane ⟨rfl, rfl, rfl, rfl, .inl rfl⟩) (stateAlike_send _ l _)
theorem stateAlike_enterActive (s : State) (l : LaneId) : s.alike (s.enterActive l) :=
  stateAlike_trans (stateAlike_onLane ⟨rfl, rfl, rfl, rfl, .inr (.inr rfl)⟩)
    (stateAlike_trans (stateAlike_laneNotice _ l _ _ _) (stateAlike_reevaluate _ l))
theorem stateAlike_sendRunOut (s : State) (l : LaneId) (sq : Seq) : s.alike (s.sendRunOut l sq) :=
  stateAlike_trans (stateAlike_counters s l _) (stateAlike_send _ l _)
theorem stateAlike_refuseItem (s : State) (l : LaneId) (sq : Seq) : s.alike (s.refuseItem l sq) :=
  stateAlike_trans (stateAlike_onLane ⟨rfl, rfl, rfl, rfl, .inl rfl⟩) (stateAlike_send _ l _)
theorem stateAlike_joinReading (s : State) (l : LaneId) (o : Observation) : s.alike (s.joinReading l o) :=
  stateAlike_onLane (alike_onReading _ _)
theorem stateAlike_testItemEnd (s : State) (l : LaneId) (i : Item) : s.alike (s.testItemEnd l i) := by
  have compared (v : Lane) (f : Item → Item) (t : TestUnit) (c : LaneCounters) : v.alike { v.onReading f with test := t, counters := c } :=
    alike_trans (alike_onReading v f) ⟨rfl, rfl, rfl, rfl, .inl rfl⟩
  exact stateAlike_ite _ (stateAlike_onLane (compared _ _ _ _))
    (stateAlike_trans (stateAlike_onLane (compared _ _ _ _)) (stateAlike_laneNotice _ l _ _ _))
theorem stateAlike_silenceExpired (s : State) (l : LaneId) : s.alike (s.silenceExpired l) := by
  unfold State.silenceExpired
  split
  · exact stateAlike_trans (stateAlike_onLane ⟨rfl, rfl, rfl, rfl, .inr (.inl rfl)⟩) (stateAlike_trans (stateAlike_restartSilence _ l)
      (stateAlike_trans (stateAlike_laneNotice _ l _ _ _) (stateAlike_reevaluate _ l)))
  · exact stateAlike_restartSilence s l
  · exact stateAlike_refl s
/-- R87: news that reaches its lane is no news to come. -/
theorem stateAlike_takeNews (s : State) (l : LaneId) : s.alike (s.takeNews l) := by
  unfold State.takeNews
  split
  · exact stateAlike_refl s
  · next b t news =>
    refine stateAlike_trans (stateAlike_onLane ⟨rfl, rfl, rfl, ?_, .inl rfl⟩) (stateAlike_reevaluate _ l)
    rw [Lane.told, Lane.told, news, List.getLastD_cons]
theorem stateAlike_clearFault (s : State) (l : LaneId) : s.alike (s.clearFault l) := by
  have cleared : s.alike (s.onLane l fun v => { v with faults := 0, faultLevel := false }) :=
    stateAlike_onLane ⟨rfl, rfl, rfl, rfl, .inl rfl⟩
  exact stateAlike_ite _ (stateAlike_trans cleared (stateAlike_laneNotice _ l _ _ _)) cleared

end Sys2Proof.Machine
end

section
/-! What keeps the consignments, the books of the report queue and the lanes' knowledge of it (R85, R87, R130, R137, R185). -/

namespace Sys2Proof.Machine

/-- From s to t the consignments keep their form, the report queue its books, and the lanes their knowledge. -/
structure State.keepsBooks (s t : State) : Prop where
  consign : s.consignWf → t.consignWf
  booked : s.booked 0 → t.booked 0
  news : s.newsWf → t.newsWf
/-- And the report queue keeps its two conditions. -/
structure State.keepsSpace (s t : State) : Prop extends s.keepsBooks t where
  spaced : s.booked 0 → s.report.spaced → t.report.spaced

theorem keepsBooks_trans {s t u : State} (h : s.keepsBooks t) (h' : t.keepsBooks u) : s.keepsBooks u :=
  ⟨h'.consign ∘ h.consign, h'.booked ∘ h.booked, h'.news ∘ h.news⟩
theorem keepsSpace_trans {s t u : State} (h : s.keepsSpace t) (h' : t.keepsSpace u) : s.keepsSpace u :=
  ⟨keepsBooks_trans h.tokeepsBooks h'.tokeepsBooks, fun booked spaced => h'.spaced (h.booked booked) (h.spaced booked spaced)⟩

/-! What leaves the slots as they are. -/

theorem slotsOf_alike {s t : State} (h : s.alike t) (l : LaneId) : t.slotsOf l = s.slotsOf l := by
  have parcel : (t.consignment l).toList.length = (s.consignment l).toList.length := by
    have number := congrArg (fun o => o.toList.length) (h.numbers l)
    simpa [Option.toList_map] using number
  rw [State.slotsOf, State.slotsOf, slotsHeld_alike (h.lanes l), parcel]
theorem booked_alike {s t : State} {n : Nat} (h : s.alike t) (booked : s.booked n) : t.booked n where
  used := (usedItem_alike h.report).trans_le booked.used
  others := h.report.others booked.others
  reserved := by
    have slots : t.slots = s.slots := Finset.sum_congr rfl fun l _ => slotsOf_alike h l
    rw [h.report.reservedItem, booked.reserved, slots]
  engine := by rw [h.report.reservedNonItem, booked.engine, h.engine]
  idle l disabled := by
    obtain same | service := (h.lanes l).state
    · exact vacant_alike (h.lanes l) (booked.idle l (same ▸ disabled))
    · simp [disabled] at service
/-- R130: a lane that stays in service, with a consignment of the same number. -/
theorem standsAt_alike {v w : Lane} {c d : Consignment} (h : v.alike w) (number : d.number = c.number) (stands : c.standsAt v) :
    d.standsAt w := by
  obtain ⟨range, mode, service⟩ := stands
  refine ⟨number ▸ range, h.mode ▸ mode, ?_⟩
  obtain same | service' := h.state
  · rwa [same]
  · exact service'
theorem consignWf_alike {s t : State} (h : s.alike t) (wf : s.consignWf) : t.consignWf := by
  obtain ⟨next, opened⟩ := wf
  refine ⟨h.next ▸ next, fun l d here => ?_⟩
  have number := h.numbers l
  rw [show t.consignment l = some d from here] at number
  obtain ⟨c, there, same⟩ := Option.map_eq_some_iff.mp number.symm
  exact standsAt_alike (h.lanes l) same.symm (opened l c there)
theorem newsWf_alike {s t : State} (h : s.alike t) (wf : s.newsWf) : t.newsWf := fun l =>
  (h.lanes l).told.trans ((wf l).trans h.report.noSpace.symm)
theorem keepsSpace_of_alike {s t : State} (h : s.alike t) : s.keepsSpace t :=
  ⟨⟨consignWf_alike h, booked_alike h, newsWf_alike h⟩, fun _ => spaced_alike h.report⟩
theorem keepsSpace_refl (s : State) : s.keepsSpace s := keepsSpace_of_alike (stateAlike_refl s)
theorem keepsSpace_ite {s t u : State} (c : Prop) [Decidable c] (ht : s.keepsSpace t) (hu : s.keepsSpace u) :
    s.keepsSpace (if c then t else u) := by
  split
  · exact ht
  · exact hu
theorem foldl_keepsSpace {α : Type} {f : State → α → State} (step : ∀ (s : State) (a : α), s.keepsSpace (f s a)) (xs : List α)
    (s : State) : s.keepsSpace (xs.foldl f s) :=
  foldl_keeps (P := s.keepsSpace) (fun u a h => keepsSpace_trans h (step u a)) xs s (keepsSpace_refl s)

/-! The settling (R185). -/

theorem told_withSpace (s : State) (no low : Bool) (l : LaneId) (news : s.newsWf) : ((s.withSpace no low).lane l).told = no := by
  have known : (s.lane l).told = s.report.noSpace := news l
  simp only [State.lane, State.withSpace, Vector.getElem_ofFn, Fin.getElem_fin, Lane.told] at known ⊢
  split
  · next same => rw [List.append_nil, known, same]
  · rw [List.getLastD_concat]
theorem lane_withSpace (s : State) (no low : Bool) (l : LaneId) :
    (s.withSpace no low).lane l = { s.lane l with news := ((s.withSpace no low).lane l).news } := by
  simp [State.lane, State.withSpace]
/-- R185: the conditions set and told. -/
theorem keepsBooks_withSpace (s : State) (no low : Bool) : s.keepsBooks (s.withSpace no low) where
  consign wf := by
    obtain ⟨next, opened⟩ := wf
    refine ⟨next, fun l c here => ?_⟩
    rw [lane_withSpace]
    exact opened l c here
  booked books := by
    have slots : (s.withSpace no low).slots = s.slots := Finset.sum_congr rfl fun l _ => by
      rw [State.slotsOf, lane_withSpace]
      rfl
    refine ⟨books.used, books.others, books.reserved.trans (congrArg (· + 0) slots.symm), books.engine, fun l disabled => ?_⟩
    rw [lane_withSpace] at disabled ⊢
    exact books.idle l disabled
  news wf l := told_withSpace s no low l wf
/-- R185, R186, R189: the settling makes the two conditions those of the unreserved slots. -/
theorem keepsSpace_settled {s t : State} (h : s.keepsBooks t) : s.keepsSpace t.settleReport := by
  have spaced : (t.withSpace (decide (t.report.unreserved = 0)) (decide (t.report.unreserved < Config.lowSpace))).report.spaced :=
    ⟨rfl, rfl⟩
  have told := keepsBooks_trans h (keepsBooks_withSpace t (decide (t.report.unreserved = 0)) (decide (t.report.unreserved < Config.lowSpace)))
  rw [settleReport_eq (no := decide (t.report.unreserved = 0)) (low := decide (t.report.unreserved < Config.lowSpace)) decide_eq_true_iff
    decide_eq_true_iff]
  generalize t.withSpace _ _ = u at *
  have falls (c : Prop) [Decidable c] : u.alike (if c then u.onReport ReportUnit.sendAll else u) :=
    stateAlike_ite _ (stateAlike_of_report rfl rfl rfl (reportAlike_sendAll _)) (stateAlike_refl u)
  have settles := stateAlike_ite (decide (t.report.unreserved < Config.lowSpace) = t.report.spaceLow) (stateAlike_refl u)
    (stateAlike_trans (falls (decide (t.report.unreserved < Config.lowSpace) = true)) (stateAlike_deviceNotice _ .reportSpaceLow
      (edgeOf (decide (t.report.unreserved < Config.lowSpace))) (.count t.report.unreserved)))
  exact ⟨keepsBooks_trans told (keepsSpace_of_alike settles).tokeepsBooks, fun _ _ => spaced_alike settles.report spaced⟩

/-! The records that are filed into item slots. -/

/-- A request that fills an item slot. -/
def Filing.fillsSlot : Filing → Bool
  | .item _ => true
  | .reserve | .completion _ | .lane _ _ _ _ | .device _ _ _ => false
/-- An item's record or a summary into its slot, or a notice. -/
def Filing.proper : Filing → Bool
  | .item x => x.isItem
  | .lane _ _ _ _ | .device _ _ _ => true
  | .reserve | .completion _ => false
/-- The requests fill n item slots, and ask notices. -/
def fillSlots (fs : List Filing) (n : Nat) : Prop := (∀ f ∈ fs, f.proper = true) ∧ fs.countP Filing.fillsSlot = n

theorem fillSlots_nil : fillSlots [] 0 := ⟨by simp, rfl⟩
theorem fillSlots_append {fs gs : List Filing} {n m : Nat} (h : fillSlots fs n) (h' : fillSlots gs m) : fillSlots (fs ++ gs) (n + m) := by
  obtain ⟨proper, fills⟩ := h
  obtain ⟨proper', fills'⟩ := h'
  refine ⟨fun f here => ?_, by rw [List.countP_append, fills, fills']⟩
  exact (List.mem_append.mp here).elim (proper f) (proper' f)
theorem fillSlots_items {rs : List ReportRecord} (h : ∀ x ∈ rs, x.isItem = true) : fillSlots (rs.map .item) rs.length := by
  refine ⟨fun f here => ?_, ?_⟩
  · obtain ⟨x, there, rfl⟩ := List.mem_map.mp here
    exact h x there
  · rw [List.countP_map]
    exact List.countP_eq_length.mpr fun _ _ => rfl
theorem fillSlots_lane (l : LaneId) (c : NoticeCondition) (e : Edge) (d : Detail) : fillSlots [.lane l c e d] 0 := ⟨by simp [Filing.proper], rfl⟩
theorem fillSlots_ite {c : Prop} [Decidable c] {fs gs : List Filing} {n : Nat} (h : fillSlots fs n) (h' : fillSlots gs n) :
    fillSlots (if c then fs else gs) n := by
  split
  · exact h
  · exact h'

/-- R185: a record filled into its reserved slot leaves as many slots used. -/
theorem booked_fillItem {s : State} {x : ReportRecord} (item : x.isItem = true) {n : Nat} (books : s.booked (n + 1)) :
    (s.file (.item x)).booked n := by
  obtain ⟨used, others, reserved, engine, idle⟩ := books
  have slot : 1 ≤ s.report.reservedItem := by omega
  refine ⟨(usedItem_file_item item slot).trans_le used, ?_, ?_, ?_, idle⟩
  · simpa [State.file, ReportUnit.usedNonItem, ReportUnit.filledNonItem, item] using others
  · simp only [State.file, fill_fields, reserved]
    exact Nat.pred_succ _
  · simpa [State.file] using engine
theorem spaced_fillItem {s : State} {x : ReportRecord} (item : x.isItem = true) (slot : 1 ≤ s.report.reservedItem)
    (spaced : s.report.spaced) : (s.file (.item x)).report.spaced :=
  spaced_of_used (usedItem_file_item item slot) (by simp [State.file]) (by simp [State.file]) spaced
theorem stateAlike_file {f : Filing} (proper : f.proper = true) (notice : f.fillsSlot = false) (s : State) : s.alike (s.file f) := by
  cases f with
  | item => cases notice
  | reserve | completion => cases proper
  | lane l c e d => exact stateAlike_laneNotice s l c e d
  | device c e d => exact stateAlike_deviceNotice s c e d
/-- R103, R136: records filed into the slots reserved for them. -/
theorem booked_files {fs : List Filing} {n m : Nat} (h : fillSlots fs n) {s : State} (books : s.booked (m + n)) :
    (s.files fs).booked m ∧ (s.report.spaced → (s.files fs).report.spaced) := by
  induction fs generalizing s n with
  | nil =>
    obtain ⟨-, rfl⟩ := h
    exact ⟨books, id⟩
  | cons f fs ih =>
    obtain ⟨proper, rfl⟩ := h
    have proper' := proper f List.mem_cons_self
    have rest : fillSlots fs (fs.countP Filing.fillsSlot) := ⟨fun g there => proper g (List.mem_cons_of_mem _ there), rfl⟩
    rw [files_cons]
    cases fills : f.fillsSlot with
    | false =>
      have notice := stateAlike_file proper' fills s
      rw [List.countP_cons_of_neg (by simp [fills])] at books
      obtain ⟨booked, spaced⟩ := ih rest (booked_alike notice books)
      exact ⟨booked, spaced ∘ spaced_alike notice.report⟩
    | true =>
      rw [List.countP_cons_of_pos fills, ← Nat.add_assoc] at books
      cases f with
      | item x =>
        obtain ⟨booked, spaced⟩ := ih rest (booked_fillItem proper' books)
        have reserved := books.reserved
        exact ⟨booked, fun given => spaced (spaced_fillItem proper' (by omega) given)⟩
      | reserve | completion | lane | device => cases fills

/-! One lane and its consignment changed, with the records this files. -/

/-- R85, R137: lane l becomes w and its consignment c, and n records are to be filed of what the lane was owed slots for. -/
structure State.trades (s : State) (l : LaneId) (w : Lane) (c : Option Consignment) (n : Nat) : Prop where
  slots : w.slotsHeld + c.toList.length + n = s.slotsOf l
  told : w.told = (s.lane l).told
  vacant : ((s.lane l).state = .disabled → (s.lane l).vacant) → w.state = .disabled → w.vacant
  opened : c = none ∨ c = s.consignment l ∧ w.mode = (s.lane l).mode ∧ w.state = (s.lane l).state
/-- The state with the lane and its consignment set. -/
def State.traded (s : State) (l : LaneId) (w : Lane) (c : Option Consignment) : State := (s.setConsignment l c).setLane l w

theorem traded_other (s : State) {l k : LaneId} (w : Lane) (c : Option Consignment) (other : k ≠ l) :
    (s.traded l w c).lane k = s.lane k ∧ (s.traded l w c).consignment k = s.consignment k :=
  ⟨lane_setLane_other _ w other, consignment_setConsignment_other s c other⟩
theorem traded_same (s : State) (l : LaneId) (w : Lane) (c : Option Consignment) :
    (s.traded l w c).lane l = w ∧ (s.traded l w c).consignment l = c :=
  ⟨lane_setLane_same _ l w, consignment_setConsignment_same s l c⟩
/-- R185: m records were to be filed, and of what the lane and its consignment were owed slots for n are now. -/
theorem booked_traded {s : State} {l : LaneId} {w : Lane} {c : Option Consignment} {n m : Nat}
    (slots : w.slotsHeld + c.toList.length + n = s.slotsOf l + m)
    (vacant : ((s.lane l).state = .disabled → (s.lane l).vacant) → w.state = .disabled → w.vacant) (books : s.booked m) :
    (s.traded l w c).booked n := by
  obtain ⟨used, others, reserved, engine, idle⟩ := books
  have owed : (s.traded l w c).slots + n = s.slots + m := by
    refine slots_of_one (l := l) (fun k other => ?_) ?_
    · rw [State.slotsOf, (traded_other s w c other).1, (traded_other s w c other).2, State.slotsOf]
    · rw [State.slotsOf, (traded_same s l w c).1, (traded_same s l w c).2]
      exact slots
  refine ⟨used, others, reserved.trans owed.symm, engine, fun k disabled => ?_⟩
  by_cases same : k = l
  · subst same
    rw [(traded_same s k w c).1] at disabled ⊢
    exact vacant (idle k) disabled
  · rw [(traded_other s w c same).1] at disabled ⊢
    exact idle k disabled
theorem consignWf_traded {s : State} {l : LaneId} {w : Lane} {c : Option Consignment}
    (opened : c = none ∨ c = s.consignment l ∧ w.mode = (s.lane l).mode ∧ w.state = (s.lane l).state) (wf : s.consignWf) :
    (s.traded l w c).consignWf := by
  obtain ⟨next, stands⟩ := (consignWf_iff s).mp wf
  refine (consignWf_iff _).mpr ⟨next, fun k x here => ?_⟩
  by_cases same : k = l
  · subst same
    rw [(traded_same s k w c).2] at here
    rw [(traded_same s k w c).1]
    obtain rfl | ⟨rfl, mode, state⟩ := opened
    · cases here
    · obtain ⟨range, service⟩ := stands k x here
      exact ⟨range, mode ▸ state ▸ service⟩
  · rw [(traded_other s w c same).2] at here
    rw [(traded_other s w c same).1]
    exact stands k x here
theorem newsWf_traded {s : State} {l : LaneId} {w : Lane} (c : Option Consignment) (told : w.told = (s.lane l).told) (wf : s.newsWf) :
    (s.traded l w c).newsWf := fun k => by
  by_cases same : k = l
  · subst same
    rw [(traded_same s k w c).1]
    exact told.trans (wf k)
  · rw [(traded_other s w c same).1]
    exact wf k
theorem noSpace_file (s : State) (f : Filing) : (s.file f).report.noSpace = s.report.noSpace := by
  cases f with
  | lane l c e d => exact (stateAlike_laneNotice s l c e d).report.noSpace
  | device c e d => exact (stateAlike_deviceNotice s c e d).report.noSpace
  | reserve => rfl
  | item | completion => simp [State.file]
theorem noSpace_files (s : State) (fs : List Filing) : (s.files fs).report.noSpace = s.report.noSpace :=
  foldl_same (fun u => u.report.noSpace) noSpace_file fs s
theorem consignWf_files {s : State} (fs : List Filing) (wf : s.consignWf) : (s.files fs).consignWf := by
  obtain ⟨next, opened⟩ := wf
  have parcels : (s.files fs).consign = s.consign := (files_fields s fs).2.2.2.2.1
  refine ⟨parcels ▸ next, fun l c here => ?_⟩
  rw [lane_files]
  exact opened l c (consignment_of_consign parcels l ▸ here)
theorem newsWf_files {s : State} (fs : List Filing) (wf : s.newsWf) : (s.files fs).newsWf := fun l => by
  rw [lane_files, noSpace_files]
  exact wf l
/-- R103, R136: what a lane and its consignment lose is filed. -/
theorem keepsSpace_traded {s : State} {l : LaneId} {w : Lane} {c : Option Consignment} {fs : List Filing} {n : Nat}
    (h : s.trades l w c n) (fills : fillSlots fs n) : s.keepsSpace (((s.setConsignment l c).setLane l w).files fs) := by
  have filed (books : s.booked 0) := booked_files (s := s.traded l w c) (m := 0) fills
    (by simpa using booked_traded (m := 0) h.slots h.vacant books)
  exact ⟨⟨fun wf => consignWf_files fs (consignWf_traded h.opened wf), fun books => (filed books).1,
    fun wf => newsWf_files fs (newsWf_traded c h.told wf)⟩, fun books => (filed books).2⟩
/-- The same with the consignment as it is. -/
theorem keepsSpace_setLane {s : State} {l : LaneId} {w : Lane} {fs : List Filing} {n : Nat}
    (h : s.trades l w (s.consignment l) n) (fills : fillSlots fs n) : s.keepsSpace ((s.setLane l w).files fs) := by
  have kept := keepsSpace_traded h fills
  rwa [setConsignment_self rfl] at kept

end Sys2Proof.Machine
end

section
/-! What the items and the consignments of a lane do to the report space: admitted, filed at the gate, flushed, opened, closed (R85, R86, R93
to R104, R132 to R138). -/

namespace Sys2Proof.Machine

/-! What is filed. -/

theorem fillSlots_of_eq {fs : List Filing} {n m : Nat} (h : fillSlots fs n) (same : n = m) : fillSlots fs m := same ▸ h
theorem fillSlots_notices {fs gs : List Filing} {n : Nat} (h : fillSlots fs n) (notices : fillSlots gs 0) : fillSlots (fs ++ gs) n :=
  fillSlots_append h notices
/-- R103: the records of items; those of a lane in a test mode fill none. -/
theorem fillSlots_items_of {α : Type} (accounted : Bool) (xs : List α) (f : α → Disposition) :
    fillSlots ((if accounted then xs.map fun x => .disposition (f x) else []).map .item) (if accounted then xs.length else 0) := by
  cases accounted with
  | false => exact fillSlots_nil
  | true =>
    refine fillSlots_of_eq (fillSlots_items fun x here => ?_) (List.length_map _)
    obtain ⟨y, -, rfl⟩ := List.mem_map.mp here
    rfl
/-- R99: the records of a window: the held item's. -/
theorem fillSlots_windowRecords (s : State) (l : LaneId) (r : ConfirmResult) :
    fillSlots ((s.windowRecords l r).map .item) (if accounts (s.lane l).mode then (s.lane l).held.toList.length else 0) :=
  fillSlots_items_of _ (s.lane l).held.toList fun h => h.item.disposition .diverted h.outlet (h.item.reasonOr .incomplete) r false
theorem fillSlots_window (s : State) (l : LaneId) (r : ConfirmResult) :
    fillSlots (s.windowFilings l r) (if accounts (s.lane l).mode then (s.lane l).held.toList.length else 0) :=
  fillSlots_append (fillSlots_windowRecords s l r) (fillSlots_ite fillSlots_nil (fillSlots_lane l _ _ _))
theorem fillSlots_missing (s : State) (l : LaneId) (ahead : List Item) :
    fillSlots ((s.missingRecords l ahead).map .item) (if accounts (s.lane l).mode then ahead.length else 0) :=
  fillSlots_items_of _ ahead fun i =>
    i.disposition .missing (i.decidedOutlet (s.lane l).config.outlets) (i.reasonOr .incomplete) .unconfirmed false
theorem fillSlots_runOut (s : State) (l : LaneId) (i : Item) (reason : Reason) (fault : Bool) :
    fillSlots ((s.runOutRecords l i reason fault).map .item) (if accounts (s.lane l).mode then 1 else 0) :=
  fillSlots_items_of _ [i] fun i => i.disposition .runOut (s.lane l).config.outlets.runout reason .unconfirmed fault
theorem fillSlots_flush (s : State) (l : LaneId) (reason : Reason) (items : List Item) :
    fillSlots ((s.flushRecords l reason items).map .item) (if accounts (s.lane l).mode then items.length else 0) :=
  fillSlots_items_of _ items fun i => i.disposition .flushed (i.decidedOutlet (s.lane l).config.outlets)
    (if i.state = .reading then .incomplete else reason) .unconfirmed false
/-- R136: the summary of the consignment that was open. -/
theorem fillSlots_summary (c : Option Consignment) (f : Consignment → Summary) :
    fillSlots ((c.toList.map fun x => ReportRecord.summary (f x)).map .item) c.toList.length := by
  refine fillSlots_of_eq (fillSlots_items fun x here => ?_) (List.length_map _)
  obtain ⟨y, -, rfl⟩ := List.mem_map.mp here
  rfl
theorem slotsHeld_eq (v : Lane) : v.slotsHeld =
    (if accounts v.mode then v.held.toList.length else 0) + if accounts v.mode then v.queue.length else 0 := by
  unfold Lane.slotsHeld
  split <;> omega
/-- R104, R137: a lane that leaves service files a record for each slot it was owed. -/
theorem fillSlots_leaving (s : State) (l : LaneId) (reason : Reason) : fillSlots (s.leavingFilings l reason) (s.slotsOf l) := by
  have records : fillSlots ((s.leavingRecords l reason).map .item) (s.slotsOf l) := by
    rw [leavingRecords_eq, List.map_append, List.map_append, State.slotsOf, slotsHeld_eq]
    exact fillSlots_append (fillSlots_append (fillSlots_windowRecords s l _) (fillSlots_flush s l reason _)) (fillSlots_summary _ _)
  exact fillSlots_notices (fillSlots_notices records (fillSlots_ite fillSlots_nil (fillSlots_lane l _ _ _)))
    (fillSlots_ite (fillSlots_lane l _ _ _) fillSlots_nil)
theorem fillSlots_held (s : State) (l : LaneId) : fillSlots (s.heldFiling l) 0 := fillSlots_ite fillSlots_nil (fillSlots_lane l _ _ _)
theorem fillSlots_disabling (s : State) (l : LaneId) (reason : Reason) : fillSlots (s.disablingFilings l reason) (s.slotsOf l) := by
  refine fillSlots_notices (fillSlots_notices (fillSlots_leaving s l reason) ?_) (fillSlots_held s l)
  cases (s.lane l).state with
  | silent | stopped => exact fillSlots_lane l _ _ _
  | active | disabled => exact fillSlots_nil

/-! A lane that leaves service. -/

theorem slotsHeld_vacant {v : Lane} (h : v.vacant) : v.slotsHeld = 0 := by
  obtain ⟨queue, held⟩ := h
  rw [slotsHeld_eq, queue, held]
  split <;> rfl
/-- R104, R137: a lane without its items and its consignment. -/
theorem trades_vacant {s : State} {l : LaneId} {w : Lane} (empty : w.vacant) (told : w.told = (s.lane l).told) :
    s.trades l w none (s.slotsOf l) where
  slots := by simp [slotsHeld_vacant empty]
  told := told
  vacant _ _ := empty
  opened := .inl rfl
theorem keepsSpace_violate (s : State) (l : LaneId) (c : ViolationCause) (t : RecordType) (q : Seq) : s.keepsSpace (s.violate l c t q) := by
  rw [violate_eq, State.stoppedBy]
  refine keepsSpace_traded (trades_vacant (vacant_alike (alike_toldHold _) ⟨rfl, rfl⟩) (alike_toldHold _).told) ?_
  exact fillSlots_notices (fillSlots_leaving s l _) (fillSlots_notices (fillSlots_lane l _ _ _) (fillSlots_held s l))
theorem keepsSpace_disableLane (s : State) (l : LaneId) (r : Reason) : s.keepsSpace (s.disableLane l r) := by
  rw [disableLane_eq]
  exact keepsSpace_traded (trades_vacant (vacant_alike (alike_toldHold _) ⟨rfl, rfl⟩) (alike_toldHold _).told) (fillSlots_disabling s l r)
theorem keepsSpace_misdirected (s : State) (l : LaneId) (t : RecordType) (sq : Seq) : s.keepsSpace (s.misdirected l t sq) :=
  keepsSpace_ite _ (keepsSpace_of_alike (stateAlike_counters s l _)) (keepsSpace_violate s l _ _ _)

/-! Consignments closed and opened. -/

/-- R136: the summary of a consignment takes its slot. -/
theorem keepsSpace_closeConsignment (s : State) (l : LaneId) (cause : CloseCause) : s.keepsSpace (s.closeConsignment l cause) := by
  have trades : s.trades l (s.lane l) none (s.consignment l).toList.length := ⟨rfl, rfl, id, .inl rfl⟩
  have kept := keepsSpace_traded trades (fillSlots_summary (s.consignment l) fun c => ⟨l, c, cause, s.table.today, c.overDeclared⟩)
  rw [closeConsignment_eq]
  rwa [List.map_map, show s.lane l = (s.setConsignment l none).lane l from rfl, setLane_self] at kept
/-- R185: a slot reserved, of which the owner is still to be set. -/
theorem booked_reserve {s : State} (room : s.report.itemRoom = true) {n : Nat} (books : s.booked n) :
    (s.onReport ReportUnit.reserveItem).booked (n + 1) := by
  have free : s.report.usedItem < Config.itemSlots := of_decide_eq_true room
  rw [ReportUnit.usedItem] at free
  refine ⟨?_, books.others, congrArg (· + 1) books.reserved, books.engine, books.idle⟩
  rw [onReport_fields s _ |>.2.2.1, ReportUnit.usedItem, ReportUnit.reserveItem]
  exact Nat.succ_add _ _ ▸ free
/-- R130: a lane that may have a consignment. -/
def Lane.serving (v : Lane) : Prop := accounts v.mode = true ∧ (v.state = .silent ∨ v.state = .active)
theorem serving_alike {v w : Lane} (h : v.alike w) (serving : v.serving) : w.serving := by
  obtain ⟨mode, state⟩ := serving
  refine ⟨h.mode ▸ mode, ?_⟩
  obtain same | service := h.state
  · rwa [same]
  · exact service
/-- R130: after 65535 comes 1. -/
theorem nextConsignment_range {n : Nat} (h : 1 ≤ n ∧ n ≤ 65535) : 1 ≤ nextConsignment n ∧ nextConsignment n ≤ 65535 := by
  unfold nextConsignment
  split <;> omega
/-- R132: a consignment opened on a lane in service, with a slot of its own. -/
theorem keepsBooks_openConsignment {s : State} {l : LaneId} (serving : (s.lane l).serving) (closed : s.consignment l = none)
    (c : SlipContent) : s.keepsBooks (s.openConsignment l c).1 := by
  unfold State.openConsignment
  split
  · next room =>
    dsimp only
    generalize opened : (⟨s.consign.nextNumber, c.publisher, c.declared, 0, 0, 0, 0, 0, s.table.today,
      decide ((s.lane l).mode = .dry)⟩ : Consignment) = x
    have number : x.number = s.consign.nextNumber := opened ▸ rfl
    refine ⟨fun wf => ?_, fun books => ?_, fun wf => wf⟩
    · obtain ⟨next, stands⟩ := (consignWf_iff s).mp wf
      refine (consignWf_iff _).mpr ⟨nextConsignment_range next, fun k y here => ?_⟩
      by_cases same : k = l
      · subst same
        have y_eq : x = y := by simpa [State.consignment, State.setConsignment] using here
        exact y_eq ▸ ⟨number ▸ next, serving⟩
      · refine stands k y ?_
        rw [← consignment_setConsignment_other s (some x) same]
        exact here
    · have slots : (s.lane l).slotsHeld + (some x).toList.length + 0 = s.slotsOf l + 1 := by
        rw [State.slotsOf, closed]
        rfl
      have reserved := booked_traded (s := s.onReport ReportUnit.reserveItem) (l := l) slots id (booked_reserve room books)
      obtain ⟨used, others, owed, engine, idle⟩ := reserved
      rw [State.traded, show s.lane l = ((s.onReport ReportUnit.reserveItem).setConsignment l (some x)).lane l from rfl, setLane_self] at *
      exact ⟨used, others, owed, engine, idle⟩
  · exact (keepsSpace_refl s).tokeepsBooks
theorem keepsBooks_slipAction {s : State} {l : LaneId} (serving : (s.lane l).serving) (r : Reason) (c : SlipContent) :
    s.keepsBooks (s.slipAction l r c).1 := by
  unfold State.slipAction
  split
  · refine keepsBooks_trans (keepsSpace_closeConsignment s l .unterminated).tokeepsBooks
      (keepsBooks_openConsignment ?_ (consignment_closeConsignment s l _) c)
    rwa [lane_closeConsignment]
  · split
    · exact (keepsSpace_of_alike (stateAlike_strayTrailer s l)).tokeepsBooks
    · exact (keepsSpace_closeConsignment s l _).tokeepsBooks
  · exact (keepsSpace_refl s).tokeepsBooks
theorem keepsBooks_informConsignment {s : State} {l : LaneId} (serving : (s.lane l).serving) (number : Option Nat) (d : Draft) :
    s.keepsBooks (s.informConsignment l number d).1 := by
  have counted (normal : Bool) := stateAlike_countMember s l number normal d.answer.reason
  unfold State.informConsignment
  dsimp only
  split
  · exact keepsBooks_trans (keepsSpace_of_alike (counted _)).tokeepsBooks
      (keepsBooks_slipAction (serving_alike ((counted _).lanes l) serving) _ _)
  · exact (keepsSpace_of_alike (counted _)).tokeepsBooks

/-! Readings and decisions. -/

theorem stateAlike_raiseDecision (s : State) (l : LaneId) (sq : Seq) (n : Nat) (d : Draft) (a : SlipAction) :
    s.alike (s.raiseDecision l sq n d a) := by
  unfold State.raiseDecision
  split
  · exact stateAlike_laneNotice s l _ _ _
  · split
    · exact stateAlike_trans (stateAlike_counters s l _) (stateAlike_laneNotice _ l _ _ _)
    · exact stateAlike_exhaustion s l sq
    · exact stateAlike_refl s
/-- R108, R185: a decision, and the report space settled behind it. -/
theorem keepsSpace_decideItem {s : State} {l : LaneId} (serving : (s.lane l).serving) (i : Item) : s.keepsSpace (s.decideItem l i) := by
  have settles (u : State) (os : List HeldObservation) (d : Decision) : u.alike (u.onLane l fun v =>
      { v.onReading fun i => i.settled os d with counters := { v.counters with decided := bump v.counters.decided } }) :=
    stateAlike_onLane (alike_trans (alike_onReading _ _) ⟨rfl, rfl, rfl, rfl, .inl rfl⟩)
  have found := stateAlike_identify s l (identsOf (i.observations.map HeldObservation.judged))
  unfold State.decideItem
  dsimp only
  generalize State.identify s l _ = out at *
  have informed := keepsBooks_informConsignment (serving_alike (found.lanes l) serving) i.consignment out.2
  generalize State.informConsignment out.1 l _ _ = told at *
  exact keepsSpace_settled (keepsBooks_trans (keepsSpace_of_alike found).tokeepsBooks (keepsBooks_trans informed
    (keepsSpace_of_alike (stateAlike_trans (settles _ _ _) (stateAlike_raiseDecision _ l _ _ _ _))).tokeepsBooks))
theorem keepsSpace_observe (s : State) (l : LaneId) (sq : Seq) (o : Observation) : s.keepsSpace (s.observe l sq o) :=
  keepsSpace_ite _ (keepsSpace_of_alike (stateAlike_joinReading s l o)) (keepsSpace_misdirected s l _ _)
theorem keepsSpace_endReading {s : State} {l : LaneId} (active : (s.lane l).state = .active) (mode : (s.lane l).mode ≠ .echo)
    (o : Option Observation) : s.keepsSpace (s.endReading l o) := by
  have decided (u : State) (active : (u.lane l).state = .active) (mode : (u.lane l).mode ≠ .echo) :
      u.keepsSpace (match (u.lane l).readingItem with
        | some i => if (u.lane l).mode = .test then u.testItemEnd l i else u.decideItem l i
        | none => u) := by
    split
    · split
      · exact keepsSpace_of_alike (stateAlike_testItemEnd u l _)
      · next other =>
        refine keepsSpace_decideItem ⟨?_, .inr active⟩ _
        cases kind : (u.lane l).mode with
        | normal | dry => rfl
        | echo => exact absurd kind mode
        | test => exact absurd kind other
    · exact keepsSpace_refl u
  cases o with
  | none => exact decided s active mode
  | some o =>
    refine keepsSpace_trans (keepsSpace_of_alike (stateAlike_joinReading s l o)) (decided _ ?_ ?_)
    · rwa [State.joinReading, lane_onLane_same]
    · rwa [State.joinReading, lane_onLane_same]
theorem keepsSpace_endItemReading {s : State} {l : LaneId} (active : (s.lane l).state = .active) (mode : (s.lane l).mode ≠ .echo)
    (sq : Seq) (o : Option Observation) : s.keepsSpace (s.endItemReading l sq o) :=
  keepsSpace_ite _ (keepsSpace_endReading active mode o) (keepsSpace_misdirected s l _ _)

/-! Admissions. -/

theorem slotsHeld_admitting (v : Lane) (l : LaneId) (sq : Seq) (number : Option Nat) (reserved : Bool) :
    (v.admitting l sq number reserved).slotsHeld = v.slotsHeld + if accounts v.mode then 1 else 0 := by
  have sent := slotsHeld_alike (alike_produce (alike_refl (v.queued l sq number reserved)) (.admission sq))
  refine sent.trans ?_
  unfold Lane.slotsHeld Lane.queued
  dsimp only
  split
  · rw [List.length_append, List.length_singleton]
    omega
  · rfl
/-- R86: an admission changes of its lane neither mode nor state, nor what it knows. -/
theorem admitting_fields (v : Lane) (l : LaneId) (sq : Seq) (number : Option Nat) (reserved : Bool) :
    (v.admitting l sq number reserved).told = v.told ∧ (v.admitting l sq number reserved).mode = v.mode ∧
    (v.admitting l sq number reserved).state = v.state := by
  rw [Lane.admitting, produce_eq]
  exact ⟨rfl, rfl, rfl⟩
/-- R86, R133, R185: the slot reserved, the member counted, the item queued. -/
theorem keepsBooks_admitting {s : State} {l : LaneId} {sq : Seq} (active : (s.lane l).state = .active)
    (slots : accounts (s.lane l).mode = true) (room : s.report.itemRoom = true) (number : Option Nat) (reserved : Bool) :
    s.keepsBooks ((s.reserving l).setLane l ((s.lane l).admitting l sq number reserved)) := by
  have joined : (s.onReport ReportUnit.reserveItem).alike (s.reserving l) := stateAlike_joinConsignment _ l
  have lane : (s.reserving l).lane l = s.lane l := lane_of_lanes (besides_reserving s l).2 l
  obtain ⟨told, mode, state⟩ := admitting_fields (s.lane l) l sq number reserved
  rw [← setConsignment_self (s := s.reserving l) (l := l) rfl]
  refine ⟨fun wf => consignWf_traded (.inr ⟨rfl, ?_, ?_⟩) (consignWf_alike joined wf), fun books => booked_traded ?_ ?_ (m := 1)
    (booked_alike joined (booked_reserve room books)), fun wf => newsWf_traded _ ?_ (newsWf_alike joined wf)⟩
  · rw [mode, lane]
  · rw [state, lane]
  · rw [State.slotsOf, lane, slotsHeld_admitting, slots, if_pos rfl]
    omega
  · intro _ disabled
    rw [state, active] at disabled
    cases disabled
  · rw [told, lane]
theorem keepsSpace_admitItem {s : State} {l : LaneId} {sq : Seq} (active : (s.lane l).state = .active)
    (room : accounts (s.lane l).mode = true → s.report.itemRoom = true) : s.keepsSpace (s.admitItem l sq) := by
  have follows (u : State) := keepsSpace_of_alike (stateAlike_reevaluate u l)
  have levels (u : State) := stateAlike_levelNotice u l (s.lane l).level
  rcases slots : accounts (s.lane l).mode with _ | _
  · have admits := admitItem_unaccounted (s := s) (l := l) slots sq
    rw [setLane_self] at admits
    rw [admits]
    obtain ⟨told, mode, state⟩ := admitting_fields (s.lane l) l sq none false
    have trades : s.trades l ((s.lane l).admitting l sq none false) (s.consignment l) 0 := by
      refine ⟨?_, told, fun _ disabled => ?_, .inr ⟨rfl, mode, state⟩⟩
      · rw [slotsHeld_admitting, slots]
        rfl
      · rw [state, active] at disabled
        cases disabled
    exact keepsSpace_trans (keepsSpace_setLane trades fillSlots_nil) (keepsSpace_trans (keepsSpace_of_alike (levels _)) (follows _))
  · have admits := admitItem_accounted (s := s) (l := l) slots sq
    rw [setLane_self] at admits
    rw [admits]
    exact keepsSpace_trans (keepsSpace_settled (keepsBooks_trans (keepsBooks_admitting active slots (room slots) _ _)
      (keepsSpace_of_alike (levels _)).tokeepsBooks)) (follows _)
theorem keepsSpace_beginItem {s : State} {l : LaneId} (active : (s.lane l).state = .active) (sq : Seq) :
    s.keepsSpace (s.beginItem l sq) := by
  unfold State.beginItem
  dsimp only
  refine keepsSpace_ite _ (keepsSpace_violate s l _ _ _) (keepsSpace_ite _ (keepsSpace_violate s l _ _ _) ?_)
  split
  · exact keepsSpace_of_alike (stateAlike_refuseItem s l sq)
  · next free => exact keepsSpace_admitItem active fun slots => by simpa [slots] using fun full => free (.inr ⟨slots, full⟩)

/-! The gate. -/

theorem slotsHeld_windowClosed (v : Lane) (r : ConfirmResult) :
    (v.windowClosed r).slotsHeld + (if accounts v.mode then v.held.toList.length else 0) = v.slotsHeld := by
  rw [windowClosed_form, slotsHeld_eq, slotsHeld_eq]
  dsimp only
  split <;> simp [Nat.add_comm]
theorem windowClosed_stands (v : Lane) (r : ConfirmResult) :
    (v.windowClosed r).told = v.told ∧ (v.windowClosed r).mode = v.mode ∧ (v.windowClosed r).state = v.state := by
  rw [windowClosed_form]
  exact ⟨rfl, rfl, rfl⟩
/-- R99: the held item leaves the lane, and its record takes its slot. -/
theorem keepsSpace_closeWindow (s : State) (l : LaneId) (r : ConfirmResult) : s.keepsSpace (s.closeWindow l r) := by
  obtain ⟨told, mode, state⟩ := windowClosed_stands (s.lane l) r
  rw [closeWindow_eq]
  refine keepsSpace_setLane ⟨?_, told, fun idle disabled => ?_, .inr ⟨rfl, mode, state⟩⟩ (fillSlots_window s l r)
  · have slots := slotsHeld_windowClosed (s.lane l) r
    rw [State.slotsOf]
    omega
  · obtain ⟨queue, -⟩ := idle (state ▸ disabled)
    rw [windowClosed_form]
    exact ⟨queue, rfl⟩
theorem keepsSpace_phantom (s : State) (l : LaneId) (sq : Seq) : s.keepsSpace (s.phantom l sq) :=
  keepsSpace_trans (keepsSpace_closeWindow s l _) (keepsSpace_of_alike (stateAlike_trans (stateAlike_counters _ l _)
    (stateAlike_trans (stateAlike_sendRunOut _ l _) (stateAlike_laneNotice _ l _ _ _))))
theorem keepsSpace_confirmItem (s : State) (l : LaneId) (sq : Seq) (outlet : Byte) : s.keepsSpace (s.confirmItem l sq outlet) := by
  have stale := keepsSpace_of_alike (stateAlike_counters s l fun c => { c with stale := bump c.stale })
  unfold State.confirmItem
  split
  · exact stale
  · exact keepsSpace_ite _ (keepsSpace_closeWindow s l _) stale

end Sys2Proof.Machine
end

section
/-! The gate and the report space (R93 to R98, R102). -/

namespace Sys2Proof.Machine

theorem produce_stands (v : Lane) (r : LaneOut) :
    (v.produce r).slotsHeld = v.slotsHeld ∧ (v.produce r).told = v.told ∧ (v.produce r).mode = v.mode ∧ (v.produce r).state = v.state := by
  rw [produce_eq]
  exact ⟨rfl, rfl, rfl, rfl⟩
/-- R94, R172: the item goes to its outlet, or in a DRY lane to the run-out, and is held. -/
theorem pairHead_held {v : Lane} {i : Item} (unread : i.state ≠ .reading) (level : v.faultLevel = false) (s : State) (l : LaneId)
    (fs : List Filing) : ∃ (c : LaneCounters) (r : LaneOut) (x : Fin 8), ((s.setLane l v).files fs).pairHead l i =
      (s.setLane l (Lane.produce { v with held := some ⟨{ i with state := .confirming }, x, v.config.confirm⟩, counters := c } r)).files
        fs := by
  have lane : (((s.setLane l v).files fs).lane l) = v := by rw [lane_files, lane_setLane_same]
  by_cases mode : v.mode = .dry
  · exact ⟨_, _, _, pairHead_dry unread level mode s l fs⟩
  · refine ⟨{ v.counters with diverted := bump v.counters.diverted }, .divert i.sq (i.decidedOutlet v.config.outlets),
      i.decidedOutlet v.config.outlets, ?_⟩
    rw [State.pairHead, if_neg unread, lane, if_neg (by simp [level]), State.divertItem]
    dsimp only
    rw [lane, if_neg mode, State.onCounters, State.send, onLane_setLane_files, onLane_setLane_files, onLane_setLane_files,
      openWindow_produce]
    · rfl
    · rfl
    · exact config_produce _ _
    · rfl
/-- R94, R95, R102: an item that is not held gives its slot to its record. -/
theorem pairHead_filed {v : Lane} (unheld : v.held = none) (s : State) (l : LaneId) (i : Item) (fs : List Filing) :
    ∃ w gs n, ((s.setLane l v).files fs).pairHead l i = (s.setLane l w).files (fs ++ gs) ∧ fillSlots gs n ∧
      w.slotsHeld + n = v.slotsHeld + (if accounts v.mode then 1 else 0) ∧ w.told = v.told ∧ w.mode = v.mode ∧ w.state = v.state := by
  have records (reason : Reason) (fault : Bool) := fillSlots_runOut (s.setLane l v) l i reason fault
  rw [lane_setLane_same] at records
  by_cases reading : i.state = .reading
  · obtain ⟨slots, stands⟩ := produce_stands
      { v with counters := { v.counters with late := bump v.counters.late, runOut := bump v.counters.runOut } }
      (.divert i.sq v.config.outlets.runout)
    exact ⟨_, _, _, pairHead_late reading s l fs, records _ _, congrArg (· + _) slots, stands⟩
  · cases level : v.faultLevel with
    | true =>
      obtain ⟨slots, stands⟩ := produce_stands { v with counters := { v.counters with runOut := bump v.counters.runOut } }
        (.divert i.sq v.config.outlets.runout)
      exact ⟨_, _, _, pairHead_faulted reading level s l fs, records _ _, congrArg (· + _) slots, stands⟩
    | false =>
      obtain ⟨c, r, x, diverts⟩ := pairHead_held reading level s l fs
      obtain ⟨slots, stands⟩ := produce_stands
        { v with held := some ⟨{ i with state := .confirming }, x, v.config.confirm⟩, counters := c } r
      refine ⟨_, [], 0, by rw [diverts, List.append_nil], fillSlots_nil, slots.trans ?_, stands⟩
      unfold Lane.slotsHeld
      rw [unheld]
      dsimp only
      split <;> rfl
/-- R93, R96: what the lane is owed once its window is closed and the items ahead have passed. -/
theorem slotsHeld_passed {v : Lane} {ahead rest : List Item} {i : Item} (queue : v.queue = ahead ++ i :: rest) :
    (v.passed ahead rest).slotsHeld + (if accounts v.mode then 1 else 0) +
      ((if accounts v.mode then v.held.toList.length else 0) + if accounts v.mode then ahead.length else 0) = v.slotsHeld := by
  rw [Lane.passed, windowClosed_form, slotsHeld_eq, slotsHeld_eq, queue, List.length_append, List.length_cons]
  dsimp only [Lane.countMissing]
  by_cases slots : accounts v.mode = true
  · simp only [slots, if_true, Option.toList_none, List.length_nil]
    omega
  · simp [slots]
theorem passed_stands (v : Lane) (ahead rest : List Item) : (v.passed ahead rest).held = none ∧ (v.passed ahead rest).told = v.told ∧
    (v.passed ahead rest).mode = v.mode ∧ (v.passed ahead rest).state = v.state := by
  rw [Lane.passed, windowClosed_form]
  exact ⟨rfl, rfl, rfl, rfl⟩
/-- R93 to R96: every item that leaves at the gate gives its slot to its record. -/
theorem keepsSpace_pairGate {s : State} {l : LaneId} {sq : Seq} (h : (s.lane l).holds sq = true) : s.keepsSpace (s.pairGate l sq) := by
  obtain ⟨ahead, i, rest, queue, named, others⟩ := split_of_holds h
  obtain ⟨unheld, told, mode, state⟩ := passed_stands (s.lane l) ahead rest
  obtain ⟨w, gs, n, pairs, fills, slots, told', mode', state'⟩ := pairHead_filed unheld s l i
    (s.windowFilings l .noConfirm ++ (s.missingRecords l ahead).map .item)
  rw [mode] at slots
  rw [pairGate_eq queue named others, pairs]
  refine keepsSpace_trans (keepsSpace_setLane ⟨?_, told'.trans told, fun idle disabled => ?_, .inr ⟨rfl, mode'.trans mode, state'.trans state⟩⟩
    (fillSlots_append (fillSlots_append (fillSlots_window s l _) (fillSlots_missing s l ahead)) fills))
    (keepsSpace_of_alike (stateAlike_trans (stateAlike_levelNotice _ l _) (stateAlike_reevaluate _ l)))
  · have passed := slotsHeld_passed queue
    rw [State.slotsOf]
    omega
  · obtain ⟨empty, -⟩ := idle ((state'.trans state) ▸ disabled)
    simp [queue] at empty
theorem keepsSpace_gate (s : State) (l : LaneId) (sq : Seq) : s.keepsSpace (s.gate l sq) := by
  unfold State.gate
  dsimp only
  split
  · next names => exact keepsSpace_pairGate names
  · exact keepsSpace_ite _ (keepsSpace_of_alike (stateAlike_counters s l _))
      (keepsSpace_ite _ (keepsSpace_phantom s l sq) (keepsSpace_violate s l _ _ _))

end Sys2Proof.Machine
end

section
/-! The table engine, the host line, starting and the commands of the lanes, and the report space (R65, R77, R80, R82, R160 to R167, R171,
R179, R187, R191, R192). -/

namespace Sys2Proof.Machine

/-! The table engine. -/

/-- R162, R185: a change of the non-item slots and of the engine that holds one. -/
theorem keepsSpace_nonItem {s t : State} (lanes : t.lanes = s.lanes) (consign : t.consign = s.consign)
    (reserved : t.report.reservedItem = s.report.reservedItem) (filled : t.report.filledItem = s.report.filledItem)
    (conditions : t.report.spaceLow = s.report.spaceLow ∧ t.report.noSpace = s.report.noSpace)
    (books : s.booked 0 → t.report.usedNonItem ≤ Config.nonItemSlots ∧ t.report.reservedNonItem = t.engine.toList.length) :
    s.keepsSpace t := by
  obtain ⟨low, no⟩ := conditions
  have lane := lane_of_lanes lanes
  have parcel := consignment_of_consign consign
  have used : t.report.usedItem = s.report.usedItem := by rw [ReportUnit.usedItem, reserved, filled, ReportUnit.usedItem]
  have slots : t.slots = s.slots := Finset.sum_congr rfl fun l _ => by rw [State.slotsOf, lane, parcel, State.slotsOf]
  refine ⟨⟨fun wf => ?_, fun booked => ?_, fun wf l => ?_⟩, fun _ => spaced_of_used used low no⟩
  · simpa only [State.consignWf, lane, parcel, consign] using wf
  · obtain ⟨others, engine⟩ := books booked
    refine ⟨used.trans_le booked.used, others, by rw [reserved, booked.reserved, slots], engine, fun l => ?_⟩
    rw [lane]
    exact booked.idle l
  · rw [lane, no]
    exact wf l
/-- R162: an operation in progress that ends fills its completion record into the engine's slot. -/
theorem keepsSpace_complete {s : State} {e₀ : EngineContext} (running : s.engine = some e₀) (e : EngineContext) (t : Termination)
    (next : Nat) (hit : Option Hit) : s.keepsSpace (s.complete e t next hit) := by
  unfold State.complete
  refine keepsSpace_nonItem rfl rfl (by simp [ReportUnit.fillCompletion]) ?_ (by simp [ReportUnit.fillCompletion]) fun books => ?_
  · simp [ReportUnit.fillCompletion, ReportUnit.filledItem, List.countP_append, ReportRecord.isItem]
  · obtain ⟨-, others, -, engine, -⟩ := books
    rw [running] at engine
    rw [ReportUnit.usedNonItem, ReportUnit.filledNonItem, engine] at others
    refine ⟨?_, ?_⟩
    · simp only [onReport_fields, ReportUnit.fillCompletion, ReportUnit.usedNonItem, ReportUnit.filledNonItem, fill_fields, engine,
        List.countP_append, Option.toList_some, List.length_singleton] at others ⊢
      exact Nat.le_trans (by simp [Nat.add_comm, ReportRecord.isItem]) others
    · simp [ReportUnit.fillCompletion, engine]
theorem keepsSpace_goOn {s : State} {e₀ : EngineContext} (running : s.engine = some e₀) (e : EngineContext) : s.keepsSpace (s.goOn e) :=
  keepsSpace_ite _ (keepsSpace_complete running e _ _ _)
    (keepsSpace_nonItem rfl rfl rfl rfl ⟨rfl, rfl⟩ fun books => ⟨books.others, by rw [books.engine, running]; rfl⟩)
/-- R160: an operation accepted reserves the slot of its completion record. -/
theorem keepsSpace_accept (s : State) (op : Operation) (start : Nat) : s.keepsSpace (s.accept op start).1 := by
  unfold State.accept
  split
  · exact keepsSpace_refl s
  · next idle =>
    split
    · exact keepsSpace_refl s
    · split
      · exact keepsSpace_refl s
      · next free =>
        have room : s.report.usedNonItem < Config.nonItemSlots := by simpa [ReportUnit.nonItemRoom] using free
        rw [ReportUnit.usedNonItem] at room
        have reserves : s.keepsSpace { s.onReport (fun r => { r with reservedNonItem := r.reservedNonItem + 1 }) with
            engine := some (newContext op start) } := by
          refine keepsSpace_nonItem rfl rfl rfl rfl ⟨rfl, rfl⟩ fun books => ⟨?_, ?_⟩
          · have reserved : s.report.reservedNonItem + 1 + s.report.filledNonItem ≤ Config.nonItemSlots := by omega
            exact reserved
          · exact congrArg (· + 1) (books.engine.trans (by rw [idle]; rfl))
        exact keepsSpace_trans reserves (keepsSpace_goOn (e₀ := newContext op start) rfl (newContext op start))
theorem keepsSpace_endEngine (s : State) : s.keepsSpace s.endEngine := by
  unfold State.endEngine
  split
  · exact keepsSpace_refl s
  · next e running => exact keepsSpace_complete running e _ _ _
theorem keepsSpace_runAbort (s : State) : s.keepsSpace s.runAbort.1 := by
  unfold State.runAbort
  split
  · exact keepsSpace_refl s
  · next e running => exact keepsSpace_complete running e _ _ _
theorem keepsSpace_examineFind {s : State} {e : EngineContext} (running : s.engine = some e) (f : FindFields) :
    s.keepsSpace (s.examineFind e f) := by
  unfold State.examineFind
  split
  · exact keepsSpace_goOn running _
  · exact keepsSpace_ite _ (keepsSpace_complete running _ _ _ _) (keepsSpace_goOn running _)
theorem stateAlike_sweepMonograph (s : State) (e : EngineContext) (r : TitleRecord) (m : MonographPart) :
    s.alike (s.sweepMonograph e r m).1 := stateAlike_trans (stateAlike_withClaims s _) (stateAlike_putRecord _ _ _)
theorem stateAlike_sweepSerial (s : State) (e : EngineContext) (r : TitleRecord) (p : SerialPart) : s.alike (s.sweepSerial e r p).1 := by
  refine stateAlike_trans ?_ (stateAlike_putRecord _ _ _)
  exact foldl_keeps (P := fun a : ArrivalStep × EngineContext => s.alike a.1.state)
    (fun a x h => stateAlike_trans h (stateAlike_withClaims _ _)) _ (⟨s, p, .none⟩, e) (stateAlike_refl s)
/-- The engine goes on behind work that leaves the report space. -/
theorem keepsSpace_goOn_of {s t : State} {e : EngineContext} (h : s.alike t) (running : s.engine = some e) (e' : EngineContext) :
    s.keepsSpace (t.goOn e') := by
  have length := h.engine
  rw [running] at length
  obtain ⟨e₁, running'⟩ : ∃ e₁, t.engine = some e₁ := by
    refine Option.ne_none_iff_exists'.mp fun none => ?_
    rw [none] at length
    cases length
  exact keepsSpace_trans (keepsSpace_of_alike h) (keepsSpace_goOn running' e')
theorem keepsSpace_examineSweep {s : State} {e : EngineContext} (running : s.engine = some e) : s.keepsSpace (s.examineSweep e) := by
  unfold State.examineSweep
  split
  · exact keepsSpace_goOn running _
  · refine keepsSpace_goOn_of ?_ running _
    split
    · split
      · exact stateAlike_sweepMonograph s e _ _
      · exact stateAlike_refl s
    · split
      · exact stateAlike_sweepSerial s e _ _
      · exact stateAlike_refl s
theorem keepsSpace_examinePurge {s : State} {e : EngineContext} (running : s.engine = some e) : s.keepsSpace (s.examinePurge e) := by
  unfold State.examinePurge
  split
  · exact keepsSpace_goOn running _
  · exact keepsSpace_ite _ (keepsSpace_goOn_of (stateAlike_withTable s _) running _)
      (keepsSpace_goOn running _)

end Sys2Proof.Machine
end

section
/-! Every step keeps the consignments and the report space (R87, R130, R137, R185). -/

namespace Sys2Proof.Machine

/-! Commands of the lanes and of the device. -/

theorem keepsSpace_withLane {s : State} {act : LaneId → State × ReplyBody} (b : Byte) (h : ∀ l, s.keepsSpace (act l).1) :
    s.keepsSpace (s.withLane b act).1 := by
  unfold State.withLane
  split
  · exact h _
  · exact keepsSpace_refl s
theorem keepsSpace_onLane {s : State} {l : LaneId} {g : Lane → Lane} (same : ∀ v : Lane, v.alike (g v)) : s.keepsSpace (s.onLane l g) :=
  keepsSpace_of_alike (stateAlike_onLane (same _))
theorem keepsSpace_runConfigureLane (s : State) (f : ConfigureFields) : s.keepsSpace (s.runConfigureLane f).1 := by
  refine keepsSpace_withLane _ fun l => ?_
  dsimp only
  split
  · exact keepsSpace_refl s
  · split
    · exact keepsSpace_refl s
    · dsimp only
      exact keepsSpace_onLane fun _ => ⟨rfl, rfl, rfl, rfl, .inl rfl⟩
theorem alike_enable (v : Lane) : v.alike v.enable := by
  refine alike_produce ?_ _
  exact ⟨rfl, rfl, rfl, rfl, .inr (.inl rfl)⟩
theorem keepsSpace_runEnableLane (s : State) (b : Byte) : s.keepsSpace (s.runEnableLane b).1 := by
  refine keepsSpace_withLane _ fun l => ?_
  dsimp only
  split
  · exact keepsSpace_refl s
  · split
    · exact keepsSpace_refl s
    · exact keepsSpace_of_alike (stateAlike_trans (stateAlike_onLane (alike_enable _)) (stateAlike_laneNotice _ l _ _ _))
theorem keepsSpace_runDisableLane (s : State) (b : Byte) : s.keepsSpace (s.runDisableLane b).1 := by
  refine keepsSpace_withLane _ fun l => ?_
  dsimp only
  split
  · exact keepsSpace_refl s
  · exact keepsSpace_disableLane s l _
theorem keepsSpace_runCloseConsignment (s : State) (b : Byte) : s.keepsSpace (s.runCloseConsignment b).1 := by
  refine keepsSpace_withLane _ fun l => ?_
  split
  · exact keepsSpace_refl s
  · exact keepsSpace_closeConsignment s l _
theorem keepsSpace_runInjectError (s : State) (b : Byte) : s.keepsSpace (s.runInjectError b).1 := by
  refine keepsSpace_withLane _ fun l => ?_
  split
  · dsimp only
    exact keepsSpace_onLane fun _ => ⟨rfl, rfl, rfl, rfl, .inl rfl⟩
  · exact keepsSpace_refl s
/-- R171: a lane out of service has no items and no consignment, in any mode. -/
theorem keepsSpace_mode {s : State} {l : LaneId} (disabled : (s.lane l).state = .disabled) (m : LaneMode) :
    s.keepsSpace (s.onLane l fun v => { v with mode := m }) := by
  have traded : s.onLane l (fun v => { v with mode := m }) = s.traded l { s.lane l with mode := m } (s.consignment l) := by
    rw [State.traded, setConsignment_self rfl]
    rfl
  rw [traded]
  refine ⟨⟨fun wf => ?_, fun books => ?_, newsWf_traded _ rfl⟩, fun _ => id⟩
  · have closed : s.consignment l = none := by
      refine Option.eq_none_iff_forall_not_mem.mpr fun c opened => ?_
      obtain ⟨-, -, service⟩ := wf.2 l c opened
      simp [disabled] at service
    exact consignWf_traded (.inl closed) wf
  · have vacant := books.idle l disabled
    refine booked_traded (m := 0) ?_ (fun _ _ => vacant) books
    rw [State.slotsOf, slotsHeld_vacant vacant, slotsHeld_vacant (v := { s.lane l with mode := m }) vacant]
theorem keepsSpace_runSetLaneMode (s : State) (f : LaneModeFields) : s.keepsSpace (s.runSetLaneMode f).1 := by
  refine keepsSpace_withLane _ fun l => ?_
  split
  · next disabled => exact keepsSpace_mode disabled _
  · exact keepsSpace_refl s
/-- R82, R191: a lane restarted leaves service when it was in service. -/
theorem keepsSpace_restartLane (s : State) (l : LaneId) : s.keepsSpace (s.restartLane l) := by
  have begins (u : State) (disabled : (u.lane l).state = .disabled) :
      u.keepsSpace (((u.onLane l Lane.restarted).clearStray l).clearFault l) :=
    keepsSpace_of_alike (stateAlike_trans (stateAlike_onLane ⟨rfl, rfl, rfl, rfl, .inl disabled.symm⟩)
      (stateAlike_trans (stateAlike_clearStray _ l) (stateAlike_clearFault _ l)))
  unfold State.restartLane
  dsimp only
  split
  · next disabled => exact begins s disabled
  · refine keepsSpace_trans (keepsSpace_disableLane s l .restarted) (begins _ ?_)
    rw [disableLane_eq, lane_files, lane_setLane_same, state_toldHold]
    rfl
theorem keepsSpace_runRestart (s : State) : s.keepsSpace s.runRestart.1 := by
  have restarted := foldl_keepsSpace keepsSpace_restartLane allLanes s
  unfold State.runRestart
  generalize allLanes.foldl State.restartLane s = u at *
  exact keepsSpace_trans restarted (keepsSpace_trans (keepsSpace_endEngine u) (keepsSpace_of_alike (stateAlike_ask _ _ _ _ _)))
/-- R192: the laws hold at power-on, and wherever their blocks are alike. -/
theorem keepsSpace_of_reset {t : State} (h : State.reset.alike t) (s : State) : s.keepsSpace t := by
  obtain ⟨-, -, -, -, -, consign, report, news, -, -⟩ := invariantsHoldAtReset
  obtain ⟨books, spaced⟩ := (reportWf_iff _).mp report
  exact ⟨⟨fun _ => consignWf_alike h consign, fun _ => booked_alike h books, fun _ => newsWf_alike h news⟩,
    fun _ _ => spaced_alike h.report spaced⟩
theorem reset_alike {t : State} (lanes : ∀ l, ∃ sending, t.lane l = { Lane.reset with sending := sending }) (consign : t.consign = .reset)
    (engine : t.engine = none) (report : t.report = .reset) : State.reset.alike t where
  lanes l := by
    obtain ⟨sending, lane⟩ := lanes l
    rw [lane, lane_reset]
    exact ⟨rfl, rfl, rfl, rfl, .inl rfl⟩
  numbers l := congrArg _ (consignment_of_consign (s := State.reset) consign l)
  next := by
    rw [consign]
    rfl
  engine := by
    rw [engine]
    rfl
  report := by
    rw [report]
    exact ⟨rfl, rfl, rfl, rfl, rfl, fun _ => Nat.zero_le _⟩

/-! The host line. -/

/-- R187: the records of a batch leave their slots, and the report space is settled. -/
theorem keepsBooks_left {s t : State} (lanes : t.lanes = s.lanes) (consign : t.consign = s.consign) (engine : t.engine = s.engine) {n : Nat}
    (report : t.report = s.report.leave n) : s.keepsBooks t := by
  have lane := lane_of_lanes lanes
  have parcel := consignment_of_consign consign
  have fewer (p : ReportRecord → Bool) : (s.report.filled.drop n).countP p ≤ s.report.filled.countP p :=
    (List.drop_sublist n _).countP_le
  refine ⟨fun wf => ?_, fun books => ⟨?_, ?_, ?_, ?_, fun l => ?_⟩, fun wf l => ?_⟩
  · simpa only [State.consignWf, lane, parcel, consign] using wf
  · rw [report]
    exact (Nat.add_le_add_left (fewer _) _).trans books.used
  · rw [report]
    exact (Nat.add_le_add_left (fewer _) _).trans books.others
  · have slots : t.slots = s.slots := Finset.sum_congr rfl fun l _ => by rw [State.slotsOf, lane, parcel, State.slotsOf]
    rw [report, slots]
    exact books.reserved
  · rw [report, engine]
    exact books.engine
  · rw [lane]
    exact books.idle l
  · rw [lane, report]
    exact wf l

/-! The 60 commands. -/

/-- A command, if it answers a next state, keeps the consignments and the report space. -/
def State.leads (s : State) (r : Result) : Prop := ∀ t, r = .next t → s.keepsSpace t

theorem leads_done {s t : State} (h : s.keepsSpace t) : s.leads t.done := by
  rintro u ⟨⟩
  exact keepsSpace_trans h (keepsSpace_of_alike (stateAlike_grant t))
theorem leads_alike {s t : State} (h : s.alike t) : s.leads t.done := leads_done (keepsSpace_of_alike h)
theorem done_leads (s : State) : s.leads s.done := leads_done (keepsSpace_refl s)
theorem leads_takeFrame {s : State} {run : State → State × ReplyBody} (code tag : Byte) (h : ∀ u : State, u.keepsSpace (run u).1) :
    s.leads (s.takeFrame code tag run) := by
  have counted (f : LinkCounters → LinkCounters) (u : State) : u.keepsSpace (u.onLink f) :=
    keepsSpace_of_alike (stateAlike_of_eq rfl rfl rfl rfl)
  unfold State.takeFrame
  dsimp only
  split
  · rintro u ⟨⟩
    exact keepsSpace_trans (counted _ s) (counted _ _)
  · exact leads_done (keepsSpace_trans (counted _ s) (keepsSpace_trans (h _) (keepsSpace_of_alike (stateAlike_of_eq rfl rfl rfl rfl))))
theorem leads_command {α : Type} {s : State} {run : α → State → State × ReplyBody} (code tag : Byte) (body : Body α)
    (h : ∀ a (u : State), u.keepsSpace (run a u).1) : s.leads (s.command code tag body run) := by
  refine leads_takeFrame code tag fun u => ?_
  cases body with
  | malformed => exact keepsSpace_refl u
  | fields a => exact h a u
theorem leads_command_alike {α : Type} {s : State} {run : α → State → State × ReplyBody} (code tag : Byte) (body : Body α)
    (h : ∀ a (u : State), u.alike (run a u).1) : s.leads (s.command code tag body run) :=
  leads_command code tag body fun a u => keepsSpace_of_alike (h a u)

/-! Records of a station. -/

theorem keepsSpace_takeRecord {s : State} {l : LaneId} (r : StationRecord) {act : State → State} (active : (s.lane l).state = .active)
    (h : ∀ u : State, (u.lane l).state = .active → (u.lane l).mode ≠ .echo → u.keepsSpace (act u)) : s.keepsSpace (s.takeRecord l r act) := by
  unfold State.takeRecord
  split
  · exact keepsSpace_of_alike (stateAlike_trans (stateAlike_reportOf s l r) (stateAlike_echo _ l r))
  · next mode => exact keepsSpace_trans (h s active mode) (keepsSpace_of_alike (stateAlike_feedTest _ l))
theorem state_enterActive (s : State) (l : LaneId) : ((s.enterActive l).lane l).state = .active := by
  rw [State.enterActive, lane_reevaluate, lane_laneNotice, lane_onLane_same]
/-- R66 to R68: a lane acts on a record when it is ACTIVE and not in ECHO mode. -/
theorem keepsSpace_receive (s : State) (l : LaneId) (r : StationRecord) {act : State → State}
    (h : ∀ u : State, (u.lane l).state = .active → (u.lane l).mode ≠ .echo → u.keepsSpace (act u)) : s.keepsSpace (s.receive l r act) := by
  have stale := stateAlike_counters s l fun c => { c with stale := bump c.stale }
  have error := keepsSpace_of_alike (stateAlike_counters s l fun c => { c with linkErrors := bump c.linkErrors })
  have silence (u : State) := stateAlike_restartSilence u l
  unfold State.receive
  split
  case h_1 => exact keepsSpace_refl s
  case h_2 =>
    refine keepsSpace_ite _ error (keepsSpace_of_alike ?_)
    cases r with
    | heartbeat b d => exact stateAlike_noteBelt s l b d
    | itemBegin | observation | itemEnd | atGate | confirm => exact stale
  case h_3 active =>
    refine keepsSpace_ite _ error (keepsSpace_trans (keepsSpace_of_alike (silence s)) (keepsSpace_takeRecord r ?_ h))
    rwa [State.restartSilence, lane_onLane_same]
  case h_4 =>
    have counted := stateAlike_trans stale (silence _)
    exact keepsSpace_ite _ error (keepsSpace_ite _
      (keepsSpace_trans (keepsSpace_of_alike (stateAlike_enterActive s l)) (keepsSpace_takeRecord r (state_enterActive s l) h))
      (keepsSpace_ite _ (keepsSpace_of_alike (stateAlike_trans counted (stateAlike_echo _ l r))) (keepsSpace_of_alike counted)))
theorem leads_receive {s : State} {act : State → State} (l : LaneId) (r : StationRecord)
    (h : ∀ u : State, (u.lane l).state = .active → (u.lane l).mode ≠ .echo → u.keepsSpace (act u)) : s.leads (s.receive l r act).done :=
  leads_done (keepsSpace_receive s l r h)

/-! Commands that leave the report space. -/

theorem stateAlike_withLane {s : State} (b : Byte) {act : LaneId → State × ReplyBody} (h : ∀ l, s.alike (act l).1) :
    s.alike (s.withLane b act).1 := by
  unfold State.withLane
  split
  · exact h _
  · exact stateAlike_refl s
theorem stateAlike_withKey {s : State} (k : KeyText) {act : Key → State × ReplyBody} (h : ∀ v, s.alike (act v).1) :
    s.alike (s.withKey k act).1 := by
  unfold State.withKey
  split
  · exact h _
  · exact stateAlike_refl s
theorem stateAlike_runAnnounceTitle (s : State) (f : AnnounceFields) : s.alike (s.runAnnounceTitle f).1 := by
  refine stateAlike_withKey _ fun k => ?_
  dsimp only
  split
  · exact stateAlike_refl s
  · split
    · exact stateAlike_trans (stateAlike_putRecord s _ _) (stateAlike_withClaims _ _)
    · split
      · exact stateAlike_withTable s _
      · exact stateAlike_refl s
theorem stateAlike_settleAmended (s : State) (n : Nat) (r : TitleRecord) : s.alike (s.settleAmended n r).1 := by
  unfold State.settleAmended
  split
  · split
    · split
      · exact stateAlike_trans (stateAlike_satisfyMonograph s _ _) (stateAlike_putRecord _ _ _)
      · exact stateAlike_putRecord s _ _
    · exact stateAlike_putRecord s _ _
  · exact stateAlike_putRecord s _ _
theorem stateAlike_runAmendTitle (s : State) (f : AmendFields) : s.alike (s.runAmendTitle f).1 := by
  refine stateAlike_withKey _ fun k => ?_
  split
  · exact stateAlike_refl s
  · split
    · exact stateAlike_refl s
    · split
      · exact stateAlike_refl s
      · split
        · exact stateAlike_refl s
        · exact stateAlike_settleAmended s _ _
theorem stateAlike_runWithdrawTitle (s : State) (k : KeyText) : s.alike (s.runWithdrawTitle k).1 := by
  refine stateAlike_withKey _ fun k => ?_
  split
  · exact stateAlike_refl s
  · split
    · exact stateAlike_refl s
    · exact stateAlike_trans (stateAlike_putRecord s _ _) (stateAlike_withClaims _ _)
theorem stateAlike_runReadTitle (s : State) (k : KeyText) : s.alike (s.runReadTitle k).1 := by
  refine stateAlike_withKey _ fun k => ?_
  split <;> exact stateAlike_refl s
theorem stateAlike_runSetRun (s : State) (f : SetRunFields) : s.alike (s.runSetRun f).1 := by
  refine stateAlike_withKey _ fun k => ?_
  split
  · exact stateAlike_refl s
  · split
    · exact stateAlike_refl s
    · split
      · exact stateAlike_refl s
      · split
        · exact stateAlike_refl s
        · exact stateAlike_putRecord s _ _
theorem stateAlike_runListTitles (s : State) (f : ListFields) : s.alike (s.runListTitles f).1 := by
  unfold State.runListTitles
  split <;> exact stateAlike_refl s
theorem stateAlike_runTakeClaims (s : State) (n : Half) : s.alike (s.runTakeClaims n).1 := by
  unfold State.runTakeClaims
  split
  · exact stateAlike_refl s
  · exact stateAlike_trans (foldl_stateAlike stateAlike_markTaken _ s) (stateAlike_withClaims _ _)
theorem stateAlike_runSetNotices (s : State) (ps : List EnablePair) : s.alike (s.runSetNotices ps).1 := by
  unfold State.runSetNotices
  split
  · exact stateAlike_of_report rfl rfl rfl ⟨rfl, rfl, rfl, rfl, rfl, id⟩
  · exact stateAlike_refl s
theorem stateAlike_runSetAccessionBase (s : State) (b : Quad) : s.alike (s.runSetAccessionBase b).1 := by
  unfold State.runSetAccessionBase
  split
  · exact stateAlike_refl s
  · split <;> exact stateAlike_of_eq rfl rfl rfl rfl
theorem stateAlike_runSetSteering (s : State) (f : SteeringFields) : s.alike (s.runSetSteering f).1 := by
  unfold State.runSetSteering
  split
  · exact stateAlike_refl s
  · split <;> exact stateAlike_of_eq rfl rfl rfl rfl

/-- Every one of the 60 commands keeps the consignments and the report space. -/
theorem exec_leads (c : Instr) (s : State) : s.leads (exec c s) := by
  cases c with
  | powerOn =>
    have reset : State.reset.alike s.poweredOn := reset_alike (fun l => ⟨none, lane_reset l⟩) rfl rfl rfl
    exact leads_done (keepsSpace_trans (keepsSpace_of_reset reset s) (keepsSpace_of_alike (stateAlike_ask _ _ _ _ _)))
  | clear =>
    have cleared (u : State) : State.reset.alike u.cleared :=
      reset_alike (fun l => ⟨(u.lane l).sending, by simp [State.lane, State.cleared]⟩) rfl rfl rfl
    simp only [exec, execClear]
    exact leads_command _ _ _ fun _ u =>
      keepsSpace_trans (keepsSpace_of_reset (cleared u) u) (keepsSpace_of_alike (stateAlike_ask _ _ _ _ _))
  | restart =>
    simp only [exec, execRestart]
    exact leads_command _ _ _ fun _ u => keepsSpace_runRestart u
  | hostLengthError | hostCrcError => exact leads_alike (stateAlike_of_eq rfl rfl rfl rfl)
  | commandDropped =>
    simp only [exec, execCommandDropped]
    split
    · exact leads_alike (stateAlike_of_eq rfl rfl rfl rfl)
    · exact done_leads s
  | unknownCommand code tag =>
    simp only [exec, execUnknownCommand]
    split
    · exact done_leads s
    · exact leads_takeFrame code tag fun u => keepsSpace_of_alike (stateAlike_of_eq rfl rfl rfl rfl)
  | replySent =>
    simp only [exec, execReplySent]
    split
    · exact leads_alike (stateAlike_of_eq rfl rfl rfl rfl)
    · exact done_leads s
    · exact done_leads s
  | batchSent =>
    simp only [exec, execBatchSent]
    split
    · exact leads_done (keepsSpace_settled (keepsBooks_left rfl rfl rfl rfl))
    · exact done_leads s
    · exact done_leads s
  | holdTimerExpiry =>
    simp only [exec, execHoldTimerExpiry]
    split
    · exact leads_alike (stateAlike_of_report rfl rfl rfl (reportAlike_sendAll _))
    · exact done_leads s
  | identify | readCounters | setDay | setGrace | readAccession | readClaimStatus | engineStatus =>
    simp only [exec, execIdentify, execReadCounters, execSetDay, execSetGrace, execReadAccession, execReadClaimStatus, execEngineStatus]
    exact leads_command_alike _ _ _ fun _ _ => stateAlike_of_eq rfl rfl rfl rfl
  | setReportHold | holdReports | releaseReports =>
    simp only [exec, execSetReportHold, execHoldReports, execReleaseReports]
    exact leads_command_alike _ _ _ fun _ _ => stateAlike_of_report rfl rfl rfl ⟨rfl, rfl, rfl, rfl, rfl, id⟩
  | flushReports =>
    simp only [exec, execFlushReports]
    exact leads_command_alike _ _ _ fun _ u => stateAlike_of_report rfl rfl rfl (reportAlike_sendAll _)
  | setNotices =>
    simp only [exec, execSetNotices]
    exact leads_command_alike _ _ _ fun ps u => stateAlike_runSetNotices u ps
  | announceTitle =>
    simp only [exec, execAnnounceTitle]
    exact leads_command_alike _ _ _ fun f u => stateAlike_runAnnounceTitle u f
  | amendTitle =>
    simp only [exec, execAmendTitle]
    exact leads_command_alike _ _ _ fun f u => stateAlike_runAmendTitle u f
  | withdrawTitle =>
    simp only [exec, execWithdrawTitle]
    exact leads_command_alike _ _ _ fun k u => stateAlike_runWithdrawTitle u k
  | readTitle =>
    simp only [exec, execReadTitle]
    exact leads_command_alike _ _ _ fun k u => stateAlike_runReadTitle u k
  | listTitles =>
    simp only [exec, execListTitles]
    exact leads_command_alike _ _ _ fun f u => stateAlike_runListTitles u f
  | setRun =>
    simp only [exec, execSetRun]
    exact leads_command_alike _ _ _ fun f u => stateAlike_runSetRun u f
  | takeClaims =>
    simp only [exec, execTakeClaims]
    exact leads_command_alike _ _ _ fun n u => stateAlike_runTakeClaims u n
  | setAccessionBase =>
    simp only [exec, execSetAccessionBase]
    exact leads_command_alike _ _ _ fun b u => stateAlike_runSetAccessionBase u b
  | setSteering =>
    simp only [exec, execSetSteering]
    exact leads_command_alike _ _ _ fun f u => stateAlike_runSetSteering u f
  | readLane | readTest | readConsignment =>
    simp only [exec, execReadLane, execReadTest, execReadConsignment]
    exact leads_command_alike _ _ _ fun b u => stateAlike_withLane b fun _ => stateAlike_refl u
  | clearDiverterFault =>
    simp only [exec, execClearDiverterFault]
    exact leads_command_alike _ _ _ fun b u => stateAlike_withLane b fun l => stateAlike_clearFault u l
  | closeConsignment =>
    simp only [exec, execCloseConsignment]
    exact leads_command _ _ _ fun b u => keepsSpace_runCloseConsignment u b
  | configureLane =>
    simp only [exec, execConfigureLane]
    exact leads_command _ _ _ fun f u => keepsSpace_runConfigureLane u f
  | enableLane =>
    simp only [exec, execEnableLane]
    exact leads_command _ _ _ fun b u => keepsSpace_runEnableLane u b
  | disableLane =>
    simp only [exec, execDisableLane]
    exact leads_command _ _ _ fun b u => keepsSpace_runDisableLane u b
  | setLaneMode =>
    simp only [exec, execSetLaneMode]
    exact leads_command _ _ _ fun f u => keepsSpace_runSetLaneMode u f
  | injectError =>
    simp only [exec, execInjectError]
    exact leads_command _ _ _ fun b u => keepsSpace_runInjectError u b
  | find =>
    simp only [exec, execFind]
    refine leads_command _ _ _ fun f u => ?_
    split
    · exact keepsSpace_refl u
    · exact keepsSpace_accept u _ _
  | sweep | purge =>
    simp only [exec, execSweep, execPurge]
    exact leads_command _ _ _ fun _ u => keepsSpace_accept u _ _
  | abort =>
    simp only [exec, execAbort]
    exact leads_command _ _ _ fun _ u => keepsSpace_runAbort u
  | findExamination =>
    simp only [exec, execFindExamination]
    split
    · next running =>
      split
      · exact leads_done (keepsSpace_examineFind running _)
      · exact done_leads s
      · exact done_leads s
    · exact done_leads s
  | sweepExamination =>
    simp only [exec, execSweepExamination]
    split
    · next running =>
      split
      · exact leads_done (keepsSpace_examineSweep running)
      · exact done_leads s
      · exact done_leads s
    · exact done_leads s
  | purgeExamination =>
    simp only [exec, execPurgeExamination]
    split
    · next running =>
      split
      · exact leads_done (keepsSpace_examinePurge running)
      · exact done_leads s
      · exact done_leads s
    · exact done_leads s
  | linkCheckFailure l | recordNotWellFormed l =>
    exact leads_alike (stateAlike_ite _ (stateAlike_refl s) (stateAlike_counters s l _))
  | heartbeat l b d => exact leads_receive l _ fun u _ _ => keepsSpace_of_alike (stateAlike_noteBelt u l b d)
  | itemBegin l sq => exact leads_receive l _ fun u active _ => keepsSpace_beginItem active sq
  | observation l sq o => exact leads_receive l _ fun u _ _ => keepsSpace_observe u l sq o
  | itemEnd l sq o => exact leads_receive l _ fun u active mode => keepsSpace_endItemReading active mode sq o
  | atGate l sq => exact leads_receive l _ fun u _ _ => keepsSpace_gate u l sq
  | confirm l sq x => exact leads_receive l _ fun u _ _ => keepsSpace_confirmItem u l sq x
  | silenceTimerExpiry l => exact leads_alike (stateAlike_silenceExpired s l)
  | confirmTimerExpiry l =>
    simp only [exec, execConfirmTimerExpiry]
    split
    · exact done_leads s
    · exact leads_done (keepsSpace_trans (keepsSpace_closeWindow s l _) (keepsSpace_of_alike (stateAlike_feedTest _ l)))
  | noReportSpaceNews l => exact leads_alike (stateAlike_takeNews s l)
  | laneRecordSent l => exact leads_alike (stateAlike_onLane (alike_sent _))

/-- A step runs one command, or none. -/
theorem keepsSpace_of_step {s t : State} (h : step s = .next t) : s.keepsSpace t := by
  unfold step at h
  split at h
  · cases h
    exact keepsSpace_refl s
  · next c rest _ =>
    have taken : s.alike { s with pending := rest } := stateAlike_of_eq rfl rfl rfl rfl
    exact keepsSpace_trans (keepsSpace_of_alike taken) (exec_leads c _ t h)
/-- Settles O59: a step keeps the consignments, the books of the report queue with its two conditions, and the lanes' knowledge. -/
theorem reportSpaceIsKept : Obligations.ReportSpaceIsKept := by
  refine ⟨fun s t consign _ h => (keepsSpace_of_step h).consign consign, fun s t report _ _ h => ?_,
    fun s t news h => (keepsSpace_of_step h).news news⟩
  obtain ⟨books, spaced⟩ := (reportWf_iff s).mp report
  exact (reportWf_iff t).mpr ⟨(keepsSpace_of_step h).booked books, (keepsSpace_of_step h).spaced books spaced⟩

end Sys2Proof.Machine
end

section
/-! The requests to the claim list (R144 to R146, R148): what each makes of the entries, case by case. -/

namespace Sys2Proof.Machine

/-! Entries that meet a range, and entries apart. -/

/-- R145: the entries a range meets are the ISSUES entries of its key that overlap or adjoin it. -/
theorem meets_iff (e : ClaimEntry) (k : Key) (first last : Nat) : e.meets k first last = true ↔
    e.key = k ∧ ∃ a b, e.body = .issues a b ∧ a ≤ last + 1 ∧ first ≤ b + 1 := by
  unfold ClaimEntry.meets
  cases e.body <;> simp
/-- R148: the entries that hold an ordinal. -/
theorem covers_iff (e : ClaimEntry) (k : Key) (m : Nat) : e.covers k m = true ↔
    e.key = k ∧ ∃ a b, e.body = .issues a b ∧ a ≤ m ∧ m ≤ b := by
  unfold ClaimEntry.covers
  cases e.body <;> simp
theorem upward_issues {e : ClaimEntry} {a b : Nat} (h : e.body = .issues a b) : e.upward = true ↔ a ≤ b := by
  simp [ClaimEntry.upward, h]
/-- R144: an ISSUES entry is apart from the entries its range does not meet. -/
theorem apart_issues_iff (e : ClaimEntry) {f : ClaimEntry} {a b : Nat} (h : f.body = .issues a b) :
    e.apart f = true ↔ e.meets f.key a b = false := by
  unfold ClaimEntry.apart ClaimEntry.meets
  rw [h]
  cases e.body with
  | monograph m => simp
  | issues c d =>
    simp only [Bool.or_eq_true, bne_iff_ne, decide_eq_true_eq, Bool.and_eq_false_iff, beq_eq_false_iff_ne, decide_eq_false_iff_not]
    exact or_congr_right (by omega)
/-- R144, R147: a MONOGRAPH entry is apart from all but the MONOGRAPH entries of its key. -/
theorem apart_monograph_iff (e : ClaimEntry) {f : ClaimEntry} (h : f.isMonograph = true) :
    e.apart f = true ↔ ¬ (e.isMonograph = true ∧ e.key = f.key) := by
  unfold ClaimEntry.apart
  cases body : f.body with
  | issues a b => simp [ClaimEntry.isMonograph, body] at h
  | monograph m => cases body' : e.body <;> simp [ClaimEntry.isMonograph, body']
theorem apart_comm (e f : ClaimEntry) : e.apart f = f.apart e := by
  unfold ClaimEntry.apart
  rw [bne_comm]
  cases e.body <;> cases f.body <;> simp [or_comm]
theorem apart_symm {e f : ClaimEntry} (h : e.apart f = true) : f.apart e = true := apart_comm e f ▸ h
/-- R148: entries that are apart do not hold one ordinal. -/
theorem not_covers_of_apart {e f : ClaimEntry} {k : Key} {m : Nat} (apart : e.apart f = true) (h : f.covers k m = true) :
    e.covers k m = false := by
  obtain ⟨rfl, a, b, body, low, high⟩ := (covers_iff f k m).1 h
  rw [apart_issues_iff e body, ← Bool.not_eq_true, meets_iff] at apart
  rw [← Bool.not_eq_true, covers_iff]
  rintro ⟨key, c, d, body', low', high'⟩
  exact apart ⟨key, c, d, body', by omega, by omega⟩

/-! Raises. -/

/-- The first entry that satisfies a test, with those before it. -/
theorem exists_first {α : Type} {p : α → Bool} {xs : List α} (h : xs.any p = true) :
    ∃ older e newer, xs = older ++ e :: newer ∧ (∀ x ∈ older, p x = false) ∧ p e = true := by
  obtain ⟨e, found⟩ := Option.isSome_iff_exists.1 (List.find?_isSome.2 (List.any_eq_true.1 h))
  obtain ⟨he, older, newer, split, before⟩ := List.find?_eq_some_iff_append.1 found
  exact ⟨older, e, newer, split, fun x hx => by simpa using before x hx, he⟩
theorem any_eq_false_of {es : List ClaimEntry} {k : Key} {first last : Nat} (h : ∀ x ∈ es, x.meets k first last = false) :
    (es.any fun e => e.meets k first last) = false := by
  simpa using h
theorem absorb_eq {k : Key} {first last : Nat} (merged : Nat × Nat) {older newer : List ClaimEntry} {e : ClaimEntry}
    (before : ∀ x ∈ older, x.meets k first last = false) (h : e.meets k first last = true) :
    absorb k first last merged (older ++ e :: newer) =
      older ++ { e with body := .issues merged.1 merged.2 } :: newer.filter fun x => !x.meets k first last := by
  induction older with
  | nil => simp only [List.nil_append, absorb, h, if_true]
  | cons x t ih =>
    obtain ⟨at_x, at_t⟩ := List.forall_mem_cons.1 before
    simp only [List.cons_append, absorb, at_x, Bool.false_eq_true, if_false, ih at_t]
/-- R145: a range widened by an entry that the range raised meets. -/
def ClaimEntry.widen (k : Key) (first last : Nat) (r : Nat × Nat) (e : ClaimEntry) : Nat × Nat :=
  if e.meets k first last then (min r.1 (e.range r).1, max r.2 (e.range r).2) else r
theorem mergedRange_eq (es : List ClaimEntry) (k : Key) (first last : Nat) :
    mergedRange es k first last = es.foldl (ClaimEntry.widen k first last) (first, last) := rfl
/-- R145: no gap lies between a range that holds the one raised and an entry that this one meets, so widening adds the entry's ordinals
alone. -/
theorem widen_covers {e : ClaimEntry} {k : Key} {first last : Nat} {acc : Nat × Nat} (low : acc.1 ≤ first) (high : last ≤ acc.2)
    (o : Nat) :
    ((e.widen k first last acc).1 ≤ o ∧ o ≤ (e.widen k first last acc).2 ↔
      (acc.1 ≤ o ∧ o ≤ acc.2) ∨ (e.meets k first last = true ∧ ∃ f g, e.body = .issues f g ∧ f ≤ o ∧ o ≤ g)) ∧
    (e.widen k first last acc).1 ≤ first ∧ last ≤ (e.widen k first last acc).2 := by
  unfold ClaimEntry.widen
  split
  · next met =>
    obtain ⟨-, a, b, body, near, near'⟩ := (meets_iff e k first last).1 met
    simp only [met, ClaimEntry.range, body, ClaimBody.issues.injEq, true_and]
    refine ⟨⟨fun inside => ?_, ?_⟩, by omega, by omega⟩
    · by_cases in_acc : acc.1 ≤ o ∧ o ≤ acc.2
      · exact .inl in_acc
      · exact .inr ⟨a, b, ⟨rfl, rfl⟩, by omega, by omega⟩
    · rintro (in_acc | ⟨f, g, ⟨rfl, rfl⟩, in_e⟩) <;> omega
  · next unmet => exact ⟨(or_iff_left fun h => unmet h.1).symm, low, high⟩
theorem foldl_widen_covers {es : List ClaimEntry} {k : Key} {first last : Nat} {acc : Nat × Nat} (low : acc.1 ≤ first)
    (high : last ≤ acc.2) (o : Nat) :
    (es.foldl (ClaimEntry.widen k first last) acc).1 ≤ o ∧ o ≤ (es.foldl (ClaimEntry.widen k first last) acc).2 ↔
      (acc.1 ≤ o ∧ o ≤ acc.2) ∨ ∃ x ∈ es, x.meets k first last = true ∧ ∃ f g, x.body = .issues f g ∧ f ≤ o ∧ o ≤ g := by
  induction es generalizing acc with
  | nil => simp
  | cons e t ih =>
    obtain ⟨covers, low', high'⟩ := widen_covers (e := e) (k := k) low high o
    rw [List.foldl_cons, ih low' high', covers, List.exists_mem_cons_iff, or_assoc]
/-- R145: the merged range holds the ordinals of the range and of the entries it meets, and no other. -/
theorem mergedRange_covers (es : List ClaimEntry) (k : Key) (first last o : Nat) :
    (mergedRange es k first last).1 ≤ o ∧ o ≤ (mergedRange es k first last).2 ↔
      (first ≤ o ∧ o ≤ last) ∨ ∃ x ∈ es, x.meets k first last = true ∧ ∃ f g, x.body = .issues f g ∧ f ≤ o ∧ o ≤ g := by
  rw [mergedRange_eq]
  exact foldl_widen_covers (acc := (first, last)) (Nat.le_refl _) (Nat.le_refl _) o

theorem raiseIssues_merged {c : ClaimList} {k : Key} {first last : Nat} {older newer : List ClaimEntry} {e : ClaimEntry}
    (split : c.entries = older ++ e :: newer) (before : ∀ x ∈ older, x.meets k first last = false)
    (h : e.meets k first last = true) (q : Nat) (cause : ClaimCause) (day : Nat) :
    c.raiseIssues k first last q cause day =
      ({ c with entries := older ++
          { e with body := .issues (mergedRange c.entries k first last).1 (mergedRange c.entries k first last).2 } ::
          newer.filter fun x => !x.meets k first last }, true) := by
  have met : (c.entries.any fun e => e.meets k first last) = true := by simp [split, h]
  rw [ClaimList.raiseIssues, if_pos met, ← absorb_eq _ before h, ← split]
theorem raiseIssues_appended {c : ClaimList} {k : Key} {first last : Nat} (none : ∀ x ∈ c.entries, x.meets k first last = false)
    (room : c.entries.length < 256) (q : Nat) (cause : ClaimCause) (day : Nat) :
    c.raiseIssues k first last q cause day = ({ c with entries := c.entries ++ [⟨k, .issues first last, q, cause, day⟩] }, true) := by
  simp [ClaimList.raiseIssues, any_eq_false_of none, ClaimList.append, Config.claimEntries, room]
theorem raiseIssues_refused {c : ClaimList} {k : Key} {first last : Nat} (none : ∀ x ∈ c.entries, x.meets k first last = false)
    (full : 256 ≤ c.entries.length) (q : Nat) (cause : ClaimCause) (day : Nat) :
    c.raiseIssues k first last q cause day =
      ({ c with lost := if cause = .slidOut then min (c.lost + (last - first + 1)) 4294967295 else c.lost }, false) := by
  simp [ClaimList.raiseIssues, any_eq_false_of none, ClaimList.append, Config.claimEntries, Nat.not_lt.2 full, satAdd,
    Config.counterMax]

/-! Satisfactions. -/

/-- R148: entries that do not hold the ordinal are passed over. -/
theorem satisfyEntries_append {k : Key} {m : Nat} {older : List ClaimEntry} (before : ∀ x ∈ older, x.covers k m = false)
    (rest : List ClaimEntry) :
    satisfyEntries k m (older ++ rest) = (older ++ (satisfyEntries k m rest).1, (satisfyEntries k m rest).2) := by
  induction older with
  | nil => rfl
  | cons x t ih =>
    obtain ⟨at_x, at_t⟩ := List.forall_mem_cons.1 before
    simp only [List.cons_append, satisfyEntries, at_x, Bool.false_eq_true, if_false, ih at_t]
theorem satisfy_notFound {c : ClaimList} {k : Key} {m : Nat} (none : ∀ x ∈ c.entries, x.covers k m = false) :
    c.satisfy k m = (c, .notFound) := by
  have passed := satisfyEntries_append none []
  rw [List.append_nil] at passed
  simp [ClaimList.satisfy, passed, satisfyEntries]
/-- R148: the first entry that holds the ordinal is trimmed at its end, removed, or left. -/
theorem satisfy_found {c : ClaimList} {k : Key} {m a b : Nat} {older newer : List ClaimEntry} {e : ClaimEntry}
    (split : c.entries = older ++ e :: newer) (before : ∀ x ∈ older, x.covers k m = false) (key : e.key = k)
    (body : e.body = .issues a b) (low : a ≤ m) (high : m ≤ b) :
    c.satisfy k m =
      if a = b then ({ c with entries := older ++ newer }, .trimmed)
      else if m = a then ({ c with entries := older ++ { e with body := .issues (m + 1) b } :: newer }, .trimmed)
      else if m = b then ({ c with entries := older ++ { e with body := .issues a (m - 1) } :: newer }, .trimmed)
      else (c, .interior) := by
  have covers : e.covers k m = true := (covers_iff e k m).2 ⟨key, a, b, body, low, high⟩
  have range : e.range (m, m) = (a, b) := by simp [ClaimEntry.range, body]
  simp only [ClaimList.satisfy, split, satisfyEntries_append before, satisfyEntries, covers, if_true, range]
  by_cases alone : a = b
  · rw [if_pos alone, if_pos (by omega)]
  · rw [if_neg alone, if_neg (by omega)]
    by_cases at_low : m = a
    · rw [if_pos at_low, if_pos at_low.symm]
    · rw [if_neg at_low, if_neg (Ne.symm at_low)]
      by_cases at_high : m = b
      · rw [if_pos at_high, if_pos at_high.symm]
      · rw [if_neg at_high, if_neg (Ne.symm at_high), ← split]

/-! The edges of CLAIM LIST FULL. -/

theorem full_eq (c : ClaimList) : c.full = decide (c.entries.length = 256) := beq_eq_decide ..
/-- R156: a request that fills the claim list, or frees its 256th place, asks the notice of its edge. -/
theorem withClaims_eq (s : State) (c : ClaimList) : s.withClaims c =
    if c.entries.length = 256 ∧ s.claims.entries.length ≠ 256 then
      State.deviceNotice { s with claims := c } .claimListFull .rising (.count 256)
    else if c.entries.length ≠ 256 ∧ s.claims.entries.length = 256 then
      State.deviceNotice { s with claims := c } .claimListFull .falling (.count c.entries.length)
    else { s with claims := c } := by
  rw [State.withClaims, full_eq, full_eq]
  by_cases is : c.entries.length = 256
  · by_cases was : s.claims.entries.length = 256
    · simp [is, was]
    · simp [is, was, edgeOf]
  · by_cases was : s.claims.entries.length = 256
    · simp [is, was, edgeOf]
    · simp [is, was]

/-- Settles O30: raises and satisfactions by what they make of the entries, then the edges. -/
theorem issueClaimsAreRaisedAndSatisfied : Obligations.IssueClaimsAreRaisedAndSatisfied := by
  refine ⟨fun c k first last q cause day older newer e _ _ split before met => ?merged, meets_iff,
    fun c k first last q cause day none room => raiseIssues_appended none room q cause day,
    fun c k first last q cause day none full => raiseIssues_refused none full q cause day,
    fun c k m a b older newer e wf split key body low high => ?found, fun c k m none => ?notFound, withClaims_eq⟩
  case merged =>
    exact ⟨_, _, raiseIssues_merged split before met q cause day, mergedRange_covers c.entries k first last⟩
  case found =>
    refine satisfy_found split (fun x hx => ?_) key body low high
    obtain ⟨-, -, apart⟩ := wf
    rw [split, List.pairwise_append] at apart
    exact not_covers_of_apart (apart.2.2 x hx e List.mem_cons_self) ((covers_iff e k m).2 ⟨key, a, b, body, low, high⟩)
  case notFound =>
    refine satisfy_notFound fun x hx => ?_
    rw [← Bool.not_eq_true, covers_iff]
    rintro ⟨key, a, b, body, inside⟩
    exact none x hx a b key body inside

end Sys2Proof.Machine
end

section
/-! The form of the claim list (R144): what the requests about issues keep of it, and the MONOGRAPH entries they leave as they are (R145 to
R150). -/

namespace Sys2Proof.Machine

/-! The keys of the MONOGRAPH entries. -/

/-- R149: the keys of the MONOGRAPH entries of a list. -/
def monographKeys (es : List ClaimEntry) : List Key := (es.filter ClaimEntry.isMonograph).map (·.key)

theorem mem_monographKeys (es : List ClaimEntry) (k : Key) :
    k ∈ monographKeys es ↔ ∃ e ∈ es, e.isMonograph = true ∧ e.key = k := by
  simp [monographKeys, and_assoc]
@[simp] theorem monographKeys_append (es fs : List ClaimEntry) : monographKeys (es ++ fs) = monographKeys es ++ monographKeys fs := by
  simp [monographKeys]
theorem monographKeys_cons_of_monograph {e : ClaimEntry} (h : e.isMonograph = true) (es : List ClaimEntry) :
    monographKeys (e :: es) = e.key :: monographKeys es := by
  simp [monographKeys, h]
theorem monographKeys_cons_of_issues {e : ClaimEntry} {a b : Nat} (h : e.body = .issues a b) (es : List ClaimEntry) :
    monographKeys (e :: es) = monographKeys es := by
  simp [monographKeys, ClaimEntry.isMonograph, h]
/-- R145: freeing ISSUES entries leaves the MONOGRAPH entries. -/
theorem monographKeys_filter_unmet (es : List ClaimEntry) (k : Key) (first last : Nat) :
    monographKeys (es.filter fun x => !x.meets k first last) = monographKeys es := by
  unfold monographKeys
  rw [List.filter_filter]
  congr 1
  refine List.filter_congr fun e _ => ?_
  unfold ClaimEntry.isMonograph ClaimEntry.meets
  cases e.body <;> simp
/-- R149: a satisfied MONOGRAPH claim takes its key out. -/
theorem monographKeys_removeMonograph (c : ClaimList) (k : Key) :
    monographKeys (c.removeMonograph k).entries = (monographKeys c.entries).filter (· != k) := by
  simp only [monographKeys, ClaimList.removeMonograph, List.filter_filter, List.filter_map]
  congr 1
  refine List.filter_congr fun e _ => ?_
  cases monograph : e.isMonograph <;> simp [bne]
theorem monographKeys_removeKey (c : ClaimList) (k : Key) :
    monographKeys (c.removeKey k).entries = (monographKeys c.entries).filter (· != k) := by
  simp only [monographKeys, ClaimList.removeKey, List.filter_filter, List.filter_map]
  congr 1
  exact List.filter_congr fun e _ => Bool.and_comm _ _
/-- R144: no two MONOGRAPH entries have one key. -/
theorem monographKeys_nodup {es : List ClaimEntry} (h : es.Pairwise fun e f => e.apart f = true) : (monographKeys es).Nodup := by
  unfold monographKeys
  rw [List.nodup_iff_pairwise_ne, List.pairwise_map]
  refine (h.sublist List.filter_sublist).imp_of_mem fun {e f} he hf apart same => ?_
  exact (apart_monograph_iff e (List.mem_filter.1 hf).2).1 apart ⟨(List.mem_filter.1 he).2, same⟩

/-! Lists in their form. -/

/-- R148 to R150: a list some of whose entries have left. -/
theorem claimsWf_of_sublist {c d : ClaimList} (h : c.wf) (sub : d.entries.Sublist c.entries) : d.wf := by
  obtain ⟨len, up, apart⟩ := h
  exact ⟨Nat.le_trans sub.length_le len, fun e he => up e (sub.subset he), apart.sublist sub⟩
/-- R146, R147: an entry appended. -/
theorem claimsWf_append {c : ClaimList} {e : ClaimEntry} (h : c.wf) (room : c.entries.length < 256) (up : e.upward = true)
    (apart : ∀ x ∈ c.entries, x.apart e = true) : ClaimList.wf { c with entries := c.entries ++ [e] } := by
  obtain ⟨-, upward, pairs⟩ := h
  refine ⟨?_, ?_, ?_⟩
  · simp only [List.length_append, List.length_singleton]
    exact room
  · simpa [or_imp, forall_and] using And.intro upward up
  · simpa [List.pairwise_append] using And.intro pairs apart
/-- R145, R148: an entry that takes another range, while some entries younger than it leave. -/
theorem claimsWf_replace {c d : ClaimList} {older newer rest : List ClaimEntry} {e e' : ClaimEntry} (h : c.wf)
    (split : c.entries = older ++ e :: newer) (sub : rest.Sublist newer) (up : e'.upward = true)
    (apart : ∀ x ∈ older ++ rest, x.apart e' = true) (hd : d.entries = older ++ e' :: rest) : d.wf := by
  obtain ⟨len, upward, pairs⟩ := h
  have others : (older ++ rest).Sublist c.entries := by
    rw [split]
    exact (List.Sublist.refl older).append (sub.cons e)
  rw [ClaimList.wf, hd]
  refine ⟨?_, ?_, ?_⟩
  · have shorter := sub.length_le
    simp only [split, List.length_append, List.length_cons] at len ⊢
    omega
  · intro x hx
    obtain rfl | other := List.mem_cons.1 (List.perm_middle.mem_iff.1 hx)
    · exact up
    · exact upward x (others.subset other)
  · rw [List.pairwise_middle apart_symm, List.pairwise_cons]
    exact ⟨fun x hx => apart_symm (apart x hx), pairs.sublist others⟩

/-! What a request about issues keeps. -/

/-- From c to d the list keeps its form, and its MONOGRAPH entries their keys. -/
def ClaimList.keepsForm (c d : ClaimList) : Prop := (c.wf → d.wf) ∧ monographKeys d.entries = monographKeys c.entries

theorem keepsForm_refl (c : ClaimList) : c.keepsForm c := ⟨id, rfl⟩
theorem keepsForm_trans {c d e : ClaimList} (h : c.keepsForm d) (h' : d.keepsForm e) : c.keepsForm e :=
  ⟨h'.1 ∘ h.1, h'.2.trans h.2⟩
/-- R145: an entry that the range raised does not meet does not meet the merged range either. -/
theorem not_meets_merged {c : ClaimList} {k : Key} {first last : Nat} {x : ClaimEntry} (h : c.wf) (up : first ≤ last)
    (hx : x ∈ c.entries) (unmet : x.meets k first last = false) :
    x.meets k (mergedRange c.entries k first last).1 (mergedRange c.entries k first last).2 = false := by
  obtain ⟨-, upward, pairs⟩ := h
  have covers := mergedRange_covers c.entries k first last
  have holds := (covers first).2 (.inl ⟨Nat.le_refl _, up⟩)
  generalize mergedRange c.entries k first last = merged at *
  rw [← Bool.not_eq_true, meets_iff] at unmet ⊢
  rintro ⟨key, a, b, body, low, high⟩
  have up_x := (upward_issues body).1 (upward x hx)
  obtain ⟨o, inside, near, near'⟩ : ∃ o, (merged.1 ≤ o ∧ o ≤ merged.2) ∧ a ≤ o + 1 ∧ o ≤ b + 1 :=
    ⟨max merged.1 (min merged.2 a), by omega, by omega, by omega⟩
  obtain in_range | ⟨y, hy, met, f, g, body', in_y⟩ := (covers o).1 inside
  · exact unmet ⟨key, a, b, body, by omega, by omega⟩
  · have other : x ≠ y := by
      rintro rfl
      exact unmet ((meets_iff x k first last).1 met)
    have : Std.Symm fun e f : ClaimEntry => e.apart f = true := ⟨fun _ _ => apart_symm⟩
    have apart : x.apart y = true := pairs.forall hx hy other
    obtain ⟨key_y, -⟩ := (meets_iff y k first last).1 met
    rw [apart_issues_iff x body', ← Bool.not_eq_true, meets_iff] at apart
    exact apart ⟨key.trans key_y.symm, a, b, body, by omega, by omega⟩
/-- R145, R146: a raise of a range that runs upward. -/
theorem raiseIssues_keepsForm (c : ClaimList) (k : Key) {first last : Nat} (up : first ≤ last) (q : Nat) (cause : ClaimCause)
    (day : Nat) : c.keepsForm (c.raiseIssues k first last q cause day).1 := by
  by_cases met : (c.entries.any fun e => e.meets k first last) = true
  · obtain ⟨older, e, newer, split, before, met⟩ := exists_first met
    obtain ⟨key, a, b, body, -⟩ := (meets_iff e k first last).1 met
    rw [raiseIssues_merged split before met]
    refine ⟨fun wf => claimsWf_replace wf split List.filter_sublist ?_ (fun x hx => ?_) rfl, ?_⟩
    · have holds := (mergedRange_covers c.entries k first last first).2 (.inl ⟨Nat.le_refl _, up⟩)
      exact (upward_issues rfl).2 (by omega)
    · refine (apart_issues_iff x rfl).2 ?_
      rw [key]
      obtain hx | hx := List.mem_append.1 hx
      · exact not_meets_merged wf up (by simp [split, hx]) (before x hx)
      · obtain ⟨hx, unmet⟩ := List.mem_filter.1 hx
        exact not_meets_merged wf up (by simp [split, hx]) (by simpa using unmet)
    · rw [split, monographKeys_append, monographKeys_append, monographKeys_cons_of_issues rfl, monographKeys_cons_of_issues body,
        monographKeys_filter_unmet]
  · have none : ∀ x ∈ c.entries, x.meets k first last = false := by simpa using met
    obtain room | full := Nat.lt_or_ge c.entries.length 256
    · rw [raiseIssues_appended none room]
      refine ⟨fun wf => claimsWf_append wf room ((upward_issues rfl).2 up) fun x hx => (apart_issues_iff x rfl).2 (none x hx), ?_⟩
      rw [monographKeys_append, monographKeys_cons_of_issues rfl]
      exact List.append_nil _
    · rw [raiseIssues_refused none full]
      exact ⟨id, rfl⟩
/-- R148: an entry trimmed stands in the place of its wider one. -/
theorem keepsForm_narrow {c d : ClaimList} {older newer : List ClaimEntry} {e : ClaimEntry} {a b a' b' : Nat}
    (split : c.entries = older ++ e :: newer) (body : e.body = .issues a b) (low : a ≤ a') (up : a' ≤ b') (high : b' ≤ b)
    (hd : d.entries = older ++ { e with body := .issues a' b' } :: newer) : c.keepsForm d := by
  refine ⟨fun wf => claimsWf_replace wf split (List.Sublist.refl newer) ((upward_issues rfl).2 up) (fun x hx => ?_) hd, ?_⟩
  · obtain ⟨-, -, pairs⟩ := wf
    rw [split, List.pairwise_middle apart_symm, List.pairwise_cons] at pairs
    have apart := pairs.1 x hx
    rw [apart_comm, apart_issues_iff x body, ← Bool.not_eq_true, meets_iff] at apart
    rw [apart_issues_iff x rfl, ← Bool.not_eq_true, meets_iff]
    rintro ⟨key, f, g, body', near, near'⟩
    exact apart ⟨key, f, g, body', by omega, by omega⟩
  · rw [hd, split, monographKeys_append, monographKeys_append, monographKeys_cons_of_issues rfl, monographKeys_cons_of_issues body]
/-- R148: a satisfaction. -/
theorem satisfy_keepsForm (c : ClaimList) (k : Key) (m : Nat) : c.keepsForm (c.satisfy k m).1 := by
  by_cases held : (c.entries.any fun e => e.covers k m) = true
  · obtain ⟨older, e, newer, split, before, covers⟩ := exists_first held
    obtain ⟨key, a, b, body, low, high⟩ := (covers_iff e k m).1 covers
    rw [satisfy_found split before key body low high]
    split_ifs
    · refine ⟨fun wf => claimsWf_of_sublist wf ?_, ?_⟩
      · rw [split]
        exact (List.Sublist.refl older).append (List.sublist_cons_self e newer)
      · rw [split, monographKeys_append, monographKeys_append, monographKeys_cons_of_issues body]
    · exact keepsForm_narrow split body (by omega) (by omega) (Nat.le_refl b) rfl
    · exact keepsForm_narrow split body (Nat.le_refl a) (by omega) (by omega) rfl
    · exact keepsForm_refl c
  · rw [satisfy_notFound (by simpa using held)]
    exact keepsForm_refl c

/-! Runs of requests. -/

/-- R53: a raise is of a range that runs upward. -/
def ClaimRequest.upward : ClaimRequest → Prop
  | .raise first last _ => first ≤ last
  | .satisfy _ _ => True
theorem run_keepsForm (c : ClaimList) (k : Key) (q day : Nat) {r : ClaimRequest} (up : r.upward) : c.keepsForm (r.run k q day c) := by
  cases r with
  | raise first last cause => exact raiseIssues_keepsForm c k up q cause day
  | satisfy m flagged => exact satisfy_keepsForm c k m
theorem after_keepsForm (c : ClaimList) (k : Key) (q day : Nat) {rs : List ClaimRequest} (up : ∀ r ∈ rs, r.upward) :
    c.keepsForm (c.after k q day rs) :=
  List.foldlRecOn rs _ (keepsForm_refl c) fun d h r hr => keepsForm_trans h (run_keepsForm d k q day (up r hr))
theorem asks_keepsForm {a b : ArrivalStep} {k : Key} {q : Nat} {rs : List ClaimRequest} (h : a.asks k q rs b)
    (up : ∀ r ∈ rs, r.upward) : a.state.claims.keepsForm b.state.claims := by
  obtain ⟨state, -⟩ := h
  rw [state, (claimsAfter_fields _ _ _ _).1]
  exact after_keepsForm _ k q _ up
/-- R47, R50: ordinals gathered into runs give ranges that run upward. -/
theorem runs_upward (xs : List Nat) : ∀ y ∈ runs xs, y.1 ≤ y.2 := by
  induction xs with
  | nil => simp [runs]
  | cons x t ih =>
    unfold runs
    split
    · simp
    · next a b rest gathered =>
      rw [gathered, List.forall_mem_cons] at ih
      obtain ⟨first, others⟩ := ih
      split
      · exact List.forall_mem_cons.2 ⟨by simp only at first ⊢; omega, others⟩
      · exact List.forall_mem_cons.2 ⟨Nat.le_refl x, List.forall_mem_cons.2 ⟨first, others⟩⟩
theorem raises_upward (xs : List Nat) (cause : ClaimCause) :
    ∀ r ∈ (runs xs).map fun y => ClaimRequest.raise y.1 y.2 cause, r.upward := by
  rintro _ hr
  obtain ⟨y, hy, rfl⟩ := List.mem_map.1 hr
  exact runs_upward xs y hy
theorem satisfactions_upward (xs : List Nat) (flagged : Bool) : ∀ r ∈ xs.map fun m => ClaimRequest.satisfy m flagged, r.upward := by
  rintro _ hr
  obtain ⟨m, -, rfl⟩ := List.mem_map.1 hr
  trivial
theorem closeGaps_keepsForm (a : ArrivalStep) (k : Key) (q last : Nat) :
    a.state.claims.keepsForm (a.closeGaps k q last).state.claims := by
  have gaps : ∀ r ∈ ((a.part.received last).gaps q).map fun y => ClaimRequest.raise y.1 y.2 .gap, r.upward := by
    unfold SerialPart.gaps
    split
    · exact fun r hr => absurd hr List.not_mem_nil
    · exact raises_upward _ _
  exact asks_keepsForm (foldl_asks (fun b y => raise_asks b k q .gap y) _ { a with part := a.part.received last }) gaps
/-- R45 to R54: a committed arrival keeps the form of the claim list. -/
theorem commit_keepsForm (a : ArrivalStep) (k : Key) (q n span : Nat) :
    a.state.claims.keepsForm (a.commit k q n span).state.claims := by
  have behind := asks_keepsForm (foldl_asks (fun b m => satisfy_asks b k q false m)
    ((coveredBy n span).filter fun x => decide (x < a.part.w)) a) (satisfactions_upward _ _)
  rw [commit_eq]
  dsimp only
  generalize List.foldl _ a _ = b at *
  split
  · exact behind
  · have slid := asks_keepsForm (slide_asks b k q (n + span - 1)) (raises_upward _ _)
    have marked := asks_keepsForm (marks_asks (b.slide k q (n + span - 1)) k q (live_nodup a.part n span))
      (satisfactions_upward _ _)
    exact keepsForm_trans behind (keepsForm_trans slid (keepsForm_trans marked (closeGaps_keepsForm _ k q _)))

end Sys2Proof.Machine
end

section
/-! Every step keeps the claim list in its form and in agreement with the claim states of the table (R144, R149). -/

namespace Sys2Proof.Machine

/-! The records in state LISTED and the keys of the MONOGRAPH entries. -/

/-- R149: a MONOGRAPH record in claim state LISTED. -/
def TitleRecord.isListed (r : TitleRecord) : Bool :=
  match r.body with
  | .monograph m => m.claim == .listed
  | .serial _ => false
theorem isListed_monograph {r : TitleRecord} {m : MonographPart} (h : r.body = .monograph m) :
    r.isListed = true ↔ m.claim = .listed := by
  simp [TitleRecord.isListed, h]
theorem isListed_serial {r : TitleRecord} {p : SerialPart} (h : r.body = .serial p) : r.isListed = false := by
  simp [TitleRecord.isListed, h]
theorem isListed_iff (r : TitleRecord) : r.isListed = true ↔ ∃ m, r.body = .monograph m ∧ m.claim = .listed := by
  cases body : r.body <;> simp [TitleRecord.isListed, body]
theorem isListed_of_body {r r' : TitleRecord} (h : r'.body = r.body) : r'.isListed = r.isListed := by
  simp only [TitleRecord.isListed, h]

/-- R149: the keys are those of the LISTED records, and no tombstone is LISTED. -/
def TitleTable.listedAs (t : TitleTable) (ks : List Key) : Prop :=
  (∀ k ∈ ks, ∃ e ∈ t.slots, e.2.key = k ∧ e.2.isListed = true) ∧
  ∀ e ∈ t.slots, e.2.isListed = true → e.2.status ≠ .withdrawn ∧ e.2.key ∈ ks
theorem claimsAgree_iff (s : State) : s.claimsAgree ↔ s.table.listedAs (monographKeys s.claims.entries) := by
  simp only [TitleTable.listedAs, mem_monographKeys, isListed_iff, Prod.exists, Prod.forall]
  constructor
  · rintro ⟨entries, records⟩
    refine ⟨?_, fun n r mem => ?_⟩
    · rintro _ ⟨e, he, monograph, rfl⟩
      obtain ⟨n, r, m, mem, key, listed⟩ := entries e he monograph
      exact ⟨n, r, mem, key, m, listed⟩
    · rintro ⟨m, body, listed⟩
      exact records n r m mem body listed
  · rintro ⟨entries, records⟩
    refine ⟨fun e he monograph => ?_, fun n r m mem body listed => records n r mem ⟨m, body, listed⟩⟩
    obtain ⟨n, r, mem, key, m, listed⟩ := entries e.key ⟨e, he, monograph, rfl⟩
    exact ⟨n, r, m, mem, key, listed⟩

section
variable {t u : TitleTable} {n : Nat} {r r' : TitleRecord} {ks ls : List Key}

/-- R149: the key of a record is among the keys when the record is LISTED. -/
theorem mem_iff_isListed (h : t.listedAs ks) (wf : t.wf) (mem : (n, r) ∈ t.slots) : r.key ∈ ks ↔ r.isListed = true := by
  refine ⟨fun listed => ?_, fun listed => (h.2 _ mem listed).2⟩
  obtain ⟨e, he, key, listed⟩ := h.1 _ listed
  rwa [key_unique wf he mem key] at listed
/-- R149: a record takes new fields but its key, and its key stands among the keys as its claim state says. -/
theorem listedAs_put (h : t.listedAs ks) (wf : t.wf) (mem : (n, r) ∈ t.slots) (puts : t.putsRecord u n r') (key : r'.key = r.key)
    (others : ∀ k, k ≠ r.key → (k ∈ ls ↔ k ∈ ks)) (own : r.key ∈ ls ↔ r'.isListed = true)
    (stands : r'.isListed = true → r'.status ≠ .withdrawn) : u.listedAs ls := by
  obtain ⟨-, -, slots⟩ := puts
  refine ⟨fun k hk => ?_, fun e he listed => ?_⟩
  · by_cases same : k = r.key
    · exact ⟨(n, r'), (slots _).2 (.inr rfl), key.trans same.symm, own.1 (same ▸ hk)⟩
    · obtain ⟨e, he, key_e, listed⟩ := h.1 k ((others k same).1 hk)
      refine ⟨e, (slots e).2 (.inl ⟨he, fun slot => same ?_⟩), key_e, listed⟩
      rw [← key_e, slot_unique wf he mem slot]
  · obtain ⟨he, slot⟩ | rfl := (slots e).1 he
    · obtain ⟨standing, listed⟩ := h.2 e he listed
      refine ⟨standing, (others _ fun same => slot ?_).2 listed⟩
      rw [key_unique wf he mem same]
    · exact ⟨stands listed, key ▸ own.2 listed⟩
/-- R26, R33, R57: a record whose claim state stands. -/
theorem listedAs_put_same (h : t.listedAs ks) (wf : t.wf) (mem : (n, r) ∈ t.slots) (key : r'.key = r.key)
    (same : r'.isListed = r.isListed) (stands : r'.isListed = true → r'.status ≠ .withdrawn) : (t.place n r').listedAs ks :=
  listedAs_put h wf mem (place_puts_of_mem wf mem key) key (fun _ _ => Iff.rfl) (by rw [same]; exact mem_iff_isListed h wf mem) stands
/-- R149, R150: a record that is not LISTED after its key has been taken out. -/
theorem listedAs_put_unlisted (h : t.listedAs ks) (wf : t.wf) (mem : (n, r) ∈ t.slots) (key : r'.key = r.key)
    (unlisted : r'.isListed = false) : (t.place n r').listedAs (ks.filter (· != r.key)) :=
  listedAs_put h wf mem (place_puts_of_mem wf mem key) key (fun k other => by simp [other]) (by simp [unlisted])
    fun listed => by simp [unlisted] at listed
/-- R24: a new record in a free slot is not LISTED. -/
theorem listedAs_insert (h : t.listedAs ks) (wf : t.wf) (free : ∀ e ∈ t.slots, e.1 ≠ n) (unlisted : r.isListed = false) :
    (t.place n r).listedAs ks := by
  have slots := mem_placeSlot (n := n) (r := r) wf.1
  refine ⟨fun k hk => ?_, fun e he listed => ?_⟩
  · obtain ⟨e, he, listed⟩ := h.1 k hk
    exact ⟨e, (slots e).2 (.inl ⟨he, free e he⟩), listed⟩
  · obtain ⟨he, -⟩ | rfl := (slots e).1 he
    · exact h.2 e he listed
    · simp [unlisted] at listed
/-- R166: the slot of a tombstone is freed. -/
theorem listedAs_free (h : t.listedAs ks) (wf : t.wf) (mem : (n, r) ∈ t.slots) (withdrawn : r.status = .withdrawn) :
    (t.free n).listedAs ks := by
  refine ⟨fun k hk => ?_, fun e he => h.2 e (List.mem_filter.1 he).1⟩
  obtain ⟨e, he, key, listed⟩ := h.1 k hk
  refine ⟨e, List.mem_filter.2 ⟨he, ?_⟩, key, listed⟩
  rw [bne_iff_ne]
  intro slot
  rw [slot_unique wf he mem slot] at listed
  exact (h.2 _ mem listed).1 withdrawn

end

/-! What a command keeps of the account. -/

/-- From s to t an account in its form keeps the form of the claim list and the agreement. -/
def State.keepsClaims (s t : State) : Prop :=
  s.accountWf → t.claims.wf ∧ t.table.listedAs (monographKeys t.claims.entries)
/-- The Title Table in its form beside the other two. -/
theorem accountWf_of_keeps {s t : State} (table : s.table.keeps t.table) (claims : s.keepsClaims t) (h : s.accountWf) : t.accountWf :=
  have ⟨wf, listed⟩ := claims h
  ⟨(table h.1).1, wf, (claimsAgree_iff t).2 listed⟩
theorem keepsClaims_of_same {s t : State} (slots : t.table.slots = s.table.slots) (entries : t.claims.entries = s.claims.entries) :
    s.keepsClaims t := by
  rintro ⟨-, wf, listed⟩
  rw [claimsAgree_iff] at listed
  unfold ClaimList.wf TitleTable.listedAs
  rw [slots, entries]
  exact ⟨wf, listed⟩
theorem keepsClaims_refl (s : State) : s.keepsClaims s := keepsClaims_of_same rfl rfl
theorem keepsClaims_agrees {s t u : State} (h : s.keepsClaims t) (h' : t.agrees u) : s.keepsClaims u := by
  obtain ⟨-, table, claims, -⟩ := h'
  unfold State.keepsClaims
  rw [table, claims]
  exact h
theorem keepsClaims_of_agrees {s t : State} (h : s.agrees t) : s.keepsClaims t := keepsClaims_agrees (keepsClaims_refl s) h
theorem keepsClaims_withKey {s : State} (k : KeyText) {act : Key → State × ReplyBody} (h : ∀ v, s.keepsClaims (act v).1) :
    s.keepsClaims (s.withKey k act).1 := by
  unfold State.withKey
  split
  · exact h _
  · exact keepsClaims_refl s
/-- R149: a record that takes new fields with its claim state left, while the claim list keeps its form. -/
theorem keepsClaims_put_same {s t : State} {n : Nat} {r r' : TitleRecord} (mem : (n, r) ∈ s.table.slots)
    (table : t.table = s.table.place n r') (claims : s.claims.keepsForm t.claims) (key : r'.key = r.key)
    (same : r'.isListed = r.isListed) (status : r'.status ≠ .withdrawn ∨ r'.status = r.status) : s.keepsClaims t := by
  rintro ⟨wf, claimsWf, listed⟩
  rw [claimsAgree_iff] at listed
  rw [table, claims.2]
  refine ⟨claims.1 claimsWf, listedAs_put_same listed wf mem key same fun is => ?_⟩
  obtain stands | stands := status
  · exact stands
  · exact stands ▸ (listed.2 _ mem (same ▸ is)).1
/-- R150: a record that is not LISTED, with its key's entries removed. -/
theorem keepsClaims_removeKey {s t : State} {n : Nat} {r r' : TitleRecord} (mem : (n, r) ∈ s.table.slots)
    (table : t.table = s.table.place n r') (claims : t.claims = s.claims.removeKey r.key) (key : r'.key = r.key)
    (unlisted : r'.isListed = false) : s.keepsClaims t := by
  rintro ⟨wf, claimsWf, listed⟩
  rw [claimsAgree_iff] at listed
  rw [table, claims, monographKeys_removeKey]
  exact ⟨claimsWf_of_sublist claimsWf List.filter_sublist, listedAs_put_unlisted listed wf mem key unlisted⟩
/-- R149: a record that is not LISTED once its monograph claim is satisfied. -/
theorem keepsClaims_satisfied {s t : State} {n : Nat} {r r' : TitleRecord} {m : MonographPart} (mem : (n, r) ∈ s.table.slots)
    (body : r.body = .monograph m) (table : t.table = s.table.place n r')
    (claims : t.claims = (s.satisfyMonograph r.key m.claim).1.claims) (key : r'.key = r.key) (unlisted : r'.isListed = false) :
    s.keepsClaims t := by
  by_cases was : m.claim = .listed
  · rw [was, State.satisfyMonograph, (withClaims_fields _ _).2.2.1] at claims
    rintro ⟨wf, claimsWf, listed⟩
    rw [claimsAgree_iff] at listed
    rw [table, claims, monographKeys_removeMonograph]
    exact ⟨claimsWf_of_sublist claimsWf List.filter_sublist, listedAs_put_unlisted listed wf mem key unlisted⟩
  · have stand : (s.satisfyMonograph r.key m.claim).1 = s := by
      unfold State.satisfyMonograph
      split
      · next is => exact absurd is was
      · rfl
      · rfl
      · rfl
    have same : r'.isListed = r.isListed := by
      rw [unlisted, eq_comm, ← Bool.not_eq_true, isListed_monograph body]
      exact was
    rw [stand] at claims
    rintro ⟨wf, claimsWf, listed⟩
    rw [claimsAgree_iff] at listed
    rw [table, claims]
    exact ⟨claimsWf, listedAs_put_same listed wf mem key same fun is => by simp [unlisted] at is⟩

/-! The commands of the Title Table. -/

theorem satisfyMonograph_table (s : State) (k : Key) (before : ClaimState) : (s.satisfyMonograph k before).1.table = s.table := by
  cases before <;> simp [State.satisfyMonograph]

theorem newTitle_unlisted (f : AnnounceFields) (k : Key) (day : Nat) : (newTitle f k day).isListed = false := by
  cases given : f.serial <;> simp [TitleRecord.isListed, newTitle, given]
theorem tombstone_unlisted (r : TitleRecord) : r.tombstone.isListed = false := by
  cases body : r.body <;> simp [TitleRecord.isListed, TitleRecord.tombstone, body]
/-- R19: the slot chosen is free. -/
theorem lowestFree_free {t : TitleTable} {n : Nat} (wf : t.wf) (h : t.lowestFree = some n) : ∀ e ∈ t.slots, e.1 ≠ n := by
  obtain ⟨-, free, -⟩ := lowestFrom_spec t.slots 0 wf.1 (by simp)
  simp only [TitleTable.lowestFree, Option.ite_none_right_eq_some, Option.some.injEq] at h
  obtain ⟨-, rfl⟩ := h
  exact free
theorem runAnnounceTitle_keepsClaims (s : State) (f : AnnounceFields) : s.keepsClaims (s.runAnnounceTitle f).1 := by
  refine keepsClaims_withKey _ fun k => ?_
  dsimp only
  split
  · exact keepsClaims_refl s
  · split
    · next n old found =>
      obtain ⟨mem, rfl⟩ := lookup_mem found
      exact keepsClaims_removeKey (r' := newTitle f old.key s.table.today) mem (by simp) (by simp) rfl (newTitle_unlisted f _ _)
    · split
      · next n free =>
        rintro ⟨wf, claimsWf, listed⟩
        rw [claimsAgree_iff] at listed
        simp only [withTable_fields]
        exact ⟨claimsWf, listedAs_insert listed wf (lowestFree_free wf free) (newTitle_unlisted f _ _)⟩
      · exact keepsClaims_refl s
theorem runWithdrawTitle_keepsClaims (s : State) (k : KeyText) : s.keepsClaims (s.runWithdrawTitle k).1 := by
  refine keepsClaims_withKey _ fun k => ?_
  split
  · exact keepsClaims_refl s
  · next n r found =>
    obtain ⟨mem, rfl⟩ := lookup_mem found
    split
    · exact keepsClaims_refl s
    · exact keepsClaims_removeKey (r' := r.tombstone) mem (by simp) (by simp) rfl (tombstone_unlisted r)
/-- R26: the changes of an amend leave the claim state. -/
theorem change_monograph {f : AmendFields} {r : TitleRecord} {m : MonographPart} (h : (AmendFields.change f r).body = .monograph m) :
    ∃ m', r.body = .monograph m' ∧ m'.claim = m.claim := by
  cases body : r.body with
  | monograph m' =>
    simp only [AmendFields.change, body, TitleBody.monograph.injEq] at h
    exact ⟨m', rfl, by rw [← h]⟩
  | serial p => simp [AmendFields.change, body] at h
theorem change_isListed (f : AmendFields) (r : TitleRecord) : (AmendFields.change f r).isListed = r.isListed := by
  cases body : r.body <;> simp [TitleRecord.isListed, AmendFields.change, body]
/-- R27, R28: an amended record is settled with its claim state, or its claim is satisfied. -/
theorem settleAmended_keepsClaims {s : State} {n : Nat} {r : TitleRecord} (f : AmendFields) (mem : (n, r) ∈ s.table.slots)
    (standing : r.status ≠ .withdrawn) : s.keepsClaims (s.settleAmended n (AmendFields.change f r)).1 := by
  have listed := change_isListed f r
  unfold State.settleAmended
  split
  · next m body =>
    obtain ⟨m', body', claim⟩ := change_monograph body
    split
    · split
      · rw [← claim]
        exact keepsClaims_satisfied mem body' (congrArg (TitleTable.place · n _) (satisfyMonograph_table s _ _)) rfl rfl rfl
      · exact keepsClaims_put_same mem rfl (keepsForm_refl _) rfl listed (.inl standing)
    · exact keepsClaims_put_same mem rfl (keepsForm_refl _) rfl ((isListed_of_body rfl).trans listed) (.inl (by simp))
  · next p body =>
    refine keepsClaims_put_same mem rfl (keepsForm_refl _) rfl ?_ (.inl standing)
    rw [← listed, isListed_serial body, isListed_serial rfl]
theorem runAmendTitle_keepsClaims (s : State) (f : AmendFields) : s.keepsClaims (s.runAmendTitle f).1 := by
  refine keepsClaims_withKey _ fun k => ?_
  split
  · exact keepsClaims_refl s
  · split
    · exact keepsClaims_refl s
    · next n r found =>
      split
      · exact keepsClaims_refl s
      · next standing =>
        split
        · exact keepsClaims_refl s
        · exact settleAmended_keepsClaims f (lookup_mem found).1 standing
theorem runSetRun_keepsClaims (s : State) (f : SetRunFields) : s.keepsClaims (s.runSetRun f).1 := by
  refine keepsClaims_withKey _ fun k => ?_
  split
  · exact keepsClaims_refl s
  · split
    · exact keepsClaims_refl s
    · next n r found =>
      split
      · exact keepsClaims_refl s
      · split
        · exact keepsClaims_refl s
        · next p body =>
          refine keepsClaims_put_same (lookup_mem found).1 rfl (keepsForm_refl _) rfl ?_ (.inr rfl)
          rw [isListed_serial body, isListed_serial rfl]

/-! Arrivals. -/

theorem commitMonograph_keepsClaims {s : State} {n : Nat} {r : TitleRecord} {m : MonographPart} (mem : (n, r) ∈ s.table.slots)
    (body : r.body = .monograph m) : s.keepsClaims (s.commitMonograph n r m).1 := by
  unfold State.commitMonograph
  dsimp only
  split
  · exact keepsClaims_satisfied mem body (congrArg (TitleTable.place · n _) (satisfyMonograph_table s _ _)) rfl rfl rfl
  · refine keepsClaims_put_same mem rfl (keepsForm_refl _) rfl ?_ (.inr rfl)
    simp only [TitleRecord.isListed, body]
theorem commitSerial_keepsClaims {s : State} {n : Nat} {r : TitleRecord} {p : SerialPart} (mem : (n, r) ∈ s.table.slots)
    (body : r.body = .serial p) (first span : Nat) : s.keepsClaims (s.commitSerial n r p first span).1 := by
  obtain ⟨table, -⟩ := commit_part ⟨s, p, .none⟩ r.key r.q first span
  refine keepsClaims_put_same mem (congrArg (TitleTable.place · n _) table) (commit_keepsForm ⟨s, p, .none⟩ r.key r.q first span) rfl
    ?_ (.inr rfl)
  rw [isListed_serial body, isListed_serial rfl]
theorem commitIf_keepsClaims {s : State} {commit : State × Indications} (h : s.keepsClaims commit.1) (normal available : Bool)
    (a : Answer) : s.keepsClaims (s.commitIf normal available a commit).1 := by
  unfold State.commitIf
  split
  · exact h
  · exact keepsClaims_refl s
theorem arrival_keepsClaims (s : State) (k : Key) (e : Option Enumeration) (normal available : Bool) :
    s.keepsClaims (s.arrival k e normal available).1 := by
  unfold State.arrival
  split
  · exact keepsClaims_refl s
  · next n r found =>
    have mem := (lookup_mem found).1
    split
    · exact keepsClaims_refl s
    · split
      · next m body => exact commitIf_keepsClaims (commitMonograph_keepsClaims mem body) _ _ _
      · next p body =>
        unfold State.serialArrival
        split
        · exact keepsClaims_refl s
        · dsimp only
          split
          · exact keepsClaims_refl s
          · exact commitIf_keepsClaims (commitSerial_keepsClaims mem body _ _) _ _ _
theorem identify_keepsClaims (s : State) (l : LaneId) (is : List Ident) : s.keepsClaims (s.identify l is).1 := by
  unfold State.identify
  split
  · exact keepsClaims_refl s
  · exact keepsClaims_refl s
  · unfold State.decideKey
    generalize (if decide ((s.lane l).mode = .normal) = true then s.decision.available else true) = available
    dsimp only
    split <;> exact arrival_keepsClaims s _ _ _ available
theorem decideItem_keepsClaims (s : State) (l : LaneId) (i : Item) : s.keepsClaims (s.decideItem l i) := by
  obtain ⟨-, table, claims⟩ := decideItem_fields s l i _ rfl
  unfold State.keepsClaims
  rw [table, claims]
  exact identify_keepsClaims s l _

/-! Claims taken. -/

/-- R153: an ISSUES entry taken changes no record. -/
theorem markTaken_issues (s : State) {e : ClaimEntry} {a b : Nat} (h : e.body = .issues a b) : s.markTaken e = s := by
  simp only [State.markTaken, h]
theorem markTaken_monograph {s : State} {e : ClaimEntry} {n : Nat} {r : TitleRecord} {m : MonographPart}
    (h : e.isMonograph = true) (found : s.table.lookup e.key = some (n, r)) (body : r.body = .monograph m) :
    s.markTaken e = s.putRecord n { r with body := .monograph { m with claim := .taken } } := by
  cases he : e.body with
  | monograph missing => simp only [State.markTaken, he, found, body]
  | issues a b => simp [ClaimEntry.isMonograph, he] at h
/-- R153: the record of a MONOGRAPH entry taken is LISTED no more, as its entry is in the list no more. -/
theorem markTaken_listedAs {s : State} {e : ClaimEntry} {es : List ClaimEntry} (wf : s.table.wf)
    (once : (monographKeys (e :: es)).Nodup) (h : s.table.listedAs (monographKeys (e :: es))) :
    (s.markTaken e).table.listedAs (monographKeys es) := by
  cases body : e.body with
  | issues a b =>
    rw [monographKeys_cons_of_issues body] at h
    rwa [markTaken_issues s body]
  | monograph missing =>
    have monograph : e.isMonograph = true := by simp [ClaimEntry.isMonograph, body]
    rw [monographKeys_cons_of_monograph monograph] at h once
    obtain ⟨⟨n, r⟩, mem, key, listed⟩ := h.1 e.key List.mem_cons_self
    obtain ⟨m, body_r, -⟩ := (isListed_iff r).1 listed
    simp only at key
    rw [markTaken_monograph monograph (key ▸ lookup_of_mem wf mem) body_r]
    have gone : r.key ∉ monographKeys es := key ▸ (List.nodup_cons.1 once).1
    refine listedAs_put h wf mem (place_puts_of_mem wf mem rfl) rfl (fun k other => ?_) ?_ ?_
    · rw [List.mem_cons, ← key]
      exact (or_iff_right other).symm
    · simp [gone, TitleRecord.isListed]
    · simp [TitleRecord.isListed]
theorem foldl_markTaken_listedAs {s : State} {taken left : List ClaimEntry} (wf : s.table.wf)
    (once : (monographKeys (taken ++ left)).Nodup) (h : s.table.listedAs (monographKeys (taken ++ left))) :
    (taken.foldl State.markTaken s).table.listedAs (monographKeys left) := by
  induction taken generalizing s with
  | nil => exact h
  | cons e es ih =>
    refine ih (markTaken_keeps s e wf).1 ?_ (markTaken_listedAs wf once h)
    refine once.sublist ?_
    exact ((List.sublist_cons_self e (es ++ left)).filter _).map _
theorem runTakeClaims_keepsClaims (s : State) (n : Half) : s.keepsClaims (s.runTakeClaims n).1 := by
  unfold State.runTakeClaims
  split
  · exact keepsClaims_refl s
  · rintro ⟨wf, claimsWf, listed⟩
    rw [claimsAgree_iff] at listed
    simp only [withClaims_fields]
    refine ⟨claimsWf_of_sublist claimsWf (List.drop_sublist _ _), foldl_markTaken_listedAs wf ?_ ?_⟩
    · rw [List.take_append_drop]
      exact monographKeys_nodup claimsWf.2.2
    · rwa [List.take_append_drop]

/-! The table engine. -/

/-- R151: an overdue monograph is EXPECTED, and not LISTED. -/
theorem unlisted_of_overdue {s : State} {r : TitleRecord} {m : MonographPart} (body : r.body = .monograph m)
    (h : s.monographOverdue r m = true) : r.status = .expected ∧ r.isListed = false := by
  simp only [State.monographOverdue, Bool.and_eq_true, decide_eq_true_eq] at h
  obtain ⟨⟨expected, -⟩, claim⟩ := h
  refine ⟨expected, ?_⟩
  rw [← Bool.not_eq_true, isListed_monograph body]
  rintro listed
  simp [listed] at claim
theorem raiseMonograph_appended {c : ClaimList} (room : c.entries.length < 256) (k : Key) (missing q day : Nat) :
    c.raiseMonograph k missing q day = ({ c with entries := c.entries ++ [⟨k, .monograph missing, q, .overdue, day⟩] }, true) :=
  if_pos room
theorem raiseMonograph_refused {c : ClaimList} (full : ¬ c.entries.length < 256) (k : Key) (missing q day : Nat) :
    c.raiseMonograph k missing q day = (c, false) := if_neg full
/-- R147: an overdue monograph is LISTED with its entry, or OWED where the list is full. -/
theorem sweepMonograph_keepsClaims {s : State} {e : EngineContext} {r : TitleRecord} {m : MonographPart}
    (mem : (e.current, r) ∈ s.table.slots) (body : r.body = .monograph m) (overdue : s.monographOverdue r m = true) :
    s.keepsClaims (s.sweepMonograph e r m).1 := by
  obtain ⟨expected, unlisted⟩ := unlisted_of_overdue body overdue
  by_cases room : s.claims.entries.length < 256
  · rintro ⟨wf, claimsWf, listed⟩
    rw [claimsAgree_iff] at listed
    have fresh : r.key ∉ monographKeys s.claims.entries := by
      rw [mem_iff_isListed listed wf mem, unlisted]
      exact Bool.false_ne_true
    simp only [State.sweepMonograph, raiseMonograph_appended room, if_true, putRecord_fields, withClaims_fields]
    refine ⟨claimsWf_append claimsWf room rfl fun x hx => (apart_monograph_iff x rfl).2 fun ⟨monograph, key⟩ =>
      fresh ((mem_monographKeys _ _).2 ⟨x, hx, monograph, key⟩), ?_⟩
    rw [monographKeys_append, monographKeys_cons_of_monograph rfl]
    refine listedAs_put listed wf mem (place_puts_of_mem wf mem rfl) rfl (fun k other => ?_) ?_ fun _ => ?_
    · simp [other, monographKeys]
    · simp [TitleRecord.isListed]
    · simp [expected]
  · refine keepsClaims_put_same mem (r' := { r with body := .monograph { m with claim := .owed } }) ?_ ?_ rfl ?_ (.inr rfl)
    · simp [State.sweepMonograph, raiseMonograph_refused room]
    · simp only [State.sweepMonograph, raiseMonograph_refused room, putRecord_fields, withClaims_fields]
      exact keepsForm_refl _
    · rw [unlisted]
      rfl
theorem sweepSerial_keepsClaims {s : State} {e : EngineContext} {r : TitleRecord} {p : SerialPart}
    (mem : (e.current, r) ∈ s.table.slots) (body : r.body = .serial p) : s.keepsClaims (s.sweepSerial e r p).1 := by
  obtain ⟨table, claims⟩ := List.foldlRecOn (motive := fun a : ArrivalStep × EngineContext =>
      a.1.state.table = s.table ∧ s.claims.keepsForm a.1.state.claims) (p.overdueRuns r.q) (sweepRaise r.key r.q)
    (b := (⟨s, p, .none⟩, e)) ⟨rfl, keepsForm_refl _⟩ fun a ⟨table, claims⟩ y hy => by
      obtain ⟨same, -⟩ := raise_leads none a.1 r.key r.q .overdue y
      refine ⟨same.trans table, keepsForm_trans claims (asks_keepsForm (raise_asks a.1 r.key r.q .overdue y) ?_)⟩
      simpa [ClaimRequest.upward] using runs_upward _ y hy
  refine keepsClaims_put_same mem (congrArg (TitleTable.place · e.current _) table) claims rfl ?_ (.inr rfl)
  rw [isListed_serial body, isListed_serial rfl]
theorem examineSweep_keepsClaims (s : State) (e : EngineContext) : s.keepsClaims (s.examineSweep e) := by
  unfold State.examineSweep
  split
  · exact keepsClaims_of_agrees (agrees_goOn s _)
  · next r held =>
    have mem := at_mem held
    refine keepsClaims_agrees ?_ (agrees_goOn _ _)
    split
    · next m body =>
      split
      · next overdue => exact sweepMonograph_keepsClaims mem body overdue
      · exact keepsClaims_refl s
    · next p body =>
      split
      · exact sweepSerial_keepsClaims mem body
      · exact keepsClaims_refl s
theorem examinePurge_keepsClaims (s : State) (e : EngineContext) : s.keepsClaims (s.examinePurge e) := by
  unfold State.examinePurge
  split
  · exact keepsClaims_of_agrees (agrees_goOn s _)
  · next r held =>
    split
    · next withdrawn =>
      refine keepsClaims_agrees ?_ (agrees_goOn _ _)
      rintro ⟨wf, claimsWf, listed⟩
      rw [claimsAgree_iff] at listed
      simp only [withTable_fields]
      exact ⟨claimsWf, listedAs_free listed wf (at_mem held) withdrawn⟩
    · exact keepsClaims_of_agrees (agrees_goOn s _)

/-! Every piece of work on the account. -/

/-- R35, R158: no record and no entry. -/
theorem accountWf_reset {s : State} (table : s.table = .reset) (claims : s.claims = .reset) : s.accountWf := by
  refine ⟨?_, ?_, ?_⟩
  · rw [table]
    exact ⟨.nil, by simp [TitleTable.reset], .nil⟩
  · rw [claims]
    exact ⟨by simp [ClaimList.reset], by simp [ClaimList.reset], .nil⟩
  · rw [claimsAgree_iff, table, claims]
    simp [TitleTable.listedAs, monographKeys, TitleTable.reset, ClaimList.reset]
theorem runSetAccessionBase_claims (b : Quad) (s : State) : (s.runSetAccessionBase b).1.claims = s.claims := by
  unfold State.runSetAccessionBase
  split
  · rfl
  · split <;> rfl
theorem runSetSteering_claims (f : SteeringFields) (s : State) : (s.runSetSteering f).1.claims = s.claims := by
  unfold State.runSetSteering
  split
  · rfl
  · split <;> rfl
theorem works_accountWf {s t : State} (works : s.Works t) (h : s.accountWf) : t.accountWf := by
  cases works with
  | powerOn | clear => exact accountWf_reset rfl rfl
  | announceTitle f => exact accountWf_of_keeps (runAnnounceTitle_keeps f s) (runAnnounceTitle_keepsClaims s f) h
  | amendTitle f => exact accountWf_of_keeps (runAmendTitle_keeps f s) (runAmendTitle_keepsClaims s f) h
  | withdrawTitle k => exact accountWf_of_keeps (runWithdrawTitle_keeps k s) (runWithdrawTitle_keepsClaims s k) h
  | setDay d => exact accountWf_of_keeps (keeps_day s.table d) (keepsClaims_of_same rfl rfl) h
  | setGrace d => exact accountWf_of_keeps (keeps_refl s.table) (keepsClaims_of_same rfl rfl) h
  | setRun f => exact accountWf_of_keeps (runSetRun_keeps f s) (runSetRun_keepsClaims s f) h
  | setAccessionBase b =>
    have table := runSetAccessionBase_table b s
    exact accountWf_of_keeps (keeps_of_eq table) (keepsClaims_of_same (congrArg _ table) (congrArg _ (runSetAccessionBase_claims b s))) h
  | setSteering f =>
    have table := runSetSteering_table f s
    exact accountWf_of_keeps (keeps_of_eq table) (keepsClaims_of_same (congrArg _ table) (congrArg _ (runSetSteering_claims f s))) h
  | takeClaims n => exact accountWf_of_keeps (runTakeClaims_keeps n s) (runTakeClaims_keepsClaims s n) h
  | decideItem l i => exact accountWf_of_keeps (decideItem_keeps s l i) (decideItem_keepsClaims s l i) h
  | examineSweep e => exact accountWf_of_keeps (examineSweep_keeps s e) (examineSweep_keepsClaims s e) h
  | examinePurge e => exact accountWf_of_keeps (examinePurge_keeps s e) (examinePurge_keepsClaims s e) h

theorem accountWf_of_same {s t : State} (h : SameAccount s t) (wf : s.accountWf) : t.accountWf := by
  obtain ⟨table, claims, -⟩ := h
  unfold State.accountWf State.claimsAgree
  rwa [table, claims]
/-- Settles O56: a step does at most one piece of work on the account, and each keeps it. -/
theorem claimListIsKept : Obligations.ClaimListIsKept := by
  intro s t wf h
  obtain stands | ⟨u, w, to_u, works, from_w⟩ := step_works h
  · exact accountWf_of_same stands wf
  · exact accountWf_of_same from_w (works_accountWf works (accountWf_of_same to_u wf))

end Sys2Proof.Machine
end

section
/-! TAKE CLAIMS (R153). -/

namespace Sys2Proof.Machine

theorem exec_takeClaims (tag : Byte) (body : Body Half) (s : State) :
    exec (.takeClaims tag body) s = s.command 0x2C#8 tag body fun n s => s.runTakeClaims n := rfl

/-! The records after a taking. -/

/-- A record put in a slot that is taken stands in the place of the one there. -/
theorem placeSlot_eq_map {n : Nat} {r : TitleRecord} {es : List (Nat × TitleRecord)} (rising : (es.map (·.1)).Pairwise (· < ·))
    (taken : ∃ e ∈ es, e.1 = n) : placeSlot n r es = es.map fun e => if e.1 = n then (n, r) else e := by
  induction es with
  | nil => simp at taken
  | cons e t ih =>
    obtain ⟨m, x⟩ := e
    rw [List.map_cons, List.pairwise_cons] at rising
    obtain ⟨first, rising_t⟩ := rising
    rw [List.exists_mem_cons_iff] at taken
    unfold placeSlot
    rw [List.map_cons]
    split
    · next below =>
      rw [if_neg (by simp only; omega), ih rising_t (taken.resolve_left (by simp only; omega))]
    · have least : n ≤ m := by omega
      have here : m = n := by
        obtain here | ⟨f, hf, slot⟩ := taken
        · exact here
        · have := first f.1 (List.mem_map_of_mem hf)
          simp only at this
          omega
      have rest : t.map (fun e => if e.1 = n then (n, r) else e) = t.map id := List.map_congr_left fun f hf => by
        have := first f.1 (List.mem_map_of_mem hf)
        exact if_neg (by simp only at this; omega)
      rw [if_pos here, if_pos here, rest, List.map_id]
theorem takenBy_nil (r : TitleRecord) : r.takenBy [] = r := by
  cases body : r.body <;> simp [TitleRecord.takenBy, body]
/-- R153: entries taken one after another. -/
theorem takenBy_cons (r : TitleRecord) (e : ClaimEntry) (es : List ClaimEntry) : r.takenBy (e :: es) = (r.takenBy [e]).takenBy es := by
  cases body : r.body with
  | serial p => simp [TitleRecord.takenBy, body]
  | monograph m =>
    by_cases own : e.isMonograph = true ∧ e.key = r.key
    · simp [TitleRecord.takenBy, body, own]
    · simp [TitleRecord.takenBy, body, own]
theorem takenBy_other {r : TitleRecord} {e : ClaimEntry} (h : ¬ (e.isMonograph = true ∧ e.key = r.key)) : r.takenBy [e] = r := by
  cases body : r.body <;> simp [TitleRecord.takenBy, body, h]
theorem takenBy_own {r : TitleRecord} {e : ClaimEntry} {m : MonographPart} (body : r.body = .monograph m)
    (h : e.isMonograph = true ∧ e.key = r.key) : r.takenBy [e] = { r with body := .monograph { m with claim := .taken } } := by
  simp [TitleRecord.takenBy, body, h]
theorem takenBy_serial {r : TitleRecord} {p : SerialPart} (body : r.body = .serial p) (es : List ClaimEntry) : r.takenBy es = r := by
  simp only [TitleRecord.takenBy, body]
/-- R153: the Title Table after the entries given have been taken. -/
def TitleTable.takenBy (t : TitleTable) (es : List ClaimEntry) : TitleTable :=
  { t with slots := t.slots.map fun x => (x.1, x.2.takenBy es) }
theorem table_takenBy_nil (t : TitleTable) : t.takenBy [] = t := by
  simp [TitleTable.takenBy, takenBy_nil]
theorem table_takenBy_cons (t : TitleTable) (e : ClaimEntry) (es : List ClaimEntry) :
    t.takenBy (e :: es) = (t.takenBy [e]).takenBy es := by
  simp only [TitleTable.takenBy, List.map_map]
  congr 1
  exact List.map_congr_left fun x _ => by simp only [Function.comp, takenBy_cons x.2 e es]
/-- R153: an entry taken that no record answers to. -/
theorem table_takenBy_same {t : TitleTable} {e : ClaimEntry} (h : ∀ x ∈ t.slots, x.2.takenBy [e] = x.2) : t.takenBy [e] = t := by
  have same : t.slots.map (fun x => (x.1, x.2.takenBy [e])) = t.slots.map id :=
    List.map_congr_left fun x hx => by rw [h x hx, id]
  rw [TitleTable.takenBy, same, List.map_id]
/-- R153: one entry taken marks the record of its key. -/
theorem markTaken_eq {s : State} (wf : s.table.wf) (e : ClaimEntry) : s.markTaken e = { s with table := s.table.takenBy [e] } := by
  unfold State.markTaken
  split
  · next missing n r monograph found =>
    obtain ⟨mem, key⟩ := lookup_mem found
    have other {x : Nat × TitleRecord} (hx : x ∈ s.table.slots) (slot : x.1 ≠ n) : x.2.takenBy [e] = x.2 :=
      takenBy_other fun ⟨_, same⟩ => slot (by rw [key_unique wf hx mem (same.symm.trans key.symm)])
    split
    · next m body =>
      have own := takenBy_own body ⟨by simp [ClaimEntry.isMonograph, monograph], key.symm⟩
      unfold State.putRecord TitleTable.place TitleTable.takenBy
      rw [placeSlot_eq_map wf.1 ⟨_, mem, rfl⟩, ← own]
      congr 2
      refine List.map_congr_left fun x hx => ?_
      split
      · next slot => rw [slot_unique wf hx mem slot]
      · next slot => rw [other hx slot]
    · next p body =>
      rw [table_takenBy_same fun x hx => ?_]
      by_cases slot : x.1 = n
      · rw [slot_unique wf hx mem slot]
        exact takenBy_serial body _
      · exact other hx slot
  · next absent =>
    rw [table_takenBy_same fun x hx => takenBy_other ?_]
    rintro ⟨monograph, key⟩
    cases body : e.body with
    | monograph missing => exact absent missing x.1 x.2 body (key ▸ lookup_of_mem wf hx)
    | issues a b => simp [ClaimEntry.isMonograph, body] at monograph
theorem foldl_markTaken_eq {s : State} (wf : s.table.wf) (es : List ClaimEntry) :
    es.foldl State.markTaken s = { s with table := s.table.takenBy es } := by
  induction es generalizing s with
  | nil => rw [table_takenBy_nil]; rfl
  | cons e es ih =>
    rw [List.foldl_cons, ih (markTaken_keeps s e wf).1, markTaken_eq wf, ← table_takenBy_cons]

/-! The command. -/

theorem runTakeClaims_refused {n : Half} (h : n = 0#16 ∨ 16 < n.toNat) (s : State) : s.runTakeClaims n = (s, .refused .invalid .none) := by
  refine if_pos ?_
  obtain rfl | many := h
  · exact .inl (by decide)
  · exact .inr many
theorem runTakeClaims_taken {n : Half} {s : State} (wf : s.table.wf) (low : 1 ≤ n.toNat) (high : n.toNat ≤ 16) :
    s.runTakeClaims n =
      (State.withClaims { s with table := s.table.takenBy (s.claims.entries.take n.toNat) }
          { s.claims with entries := s.claims.entries.drop n.toNat },
        .done (.claims (s.claims.entries.take n.toNat) (s.claims.entries.length - n.toNat))) := by
  rw [State.runTakeClaims, if_neg (by omega)]
  simp only [foldl_markTaken_eq wf, List.length_drop]

/-- Settles O29: the number asked, then the entries taken. -/
theorem takeClaimsRemovesTheOldest : Obligations.TakeClaimsRemovesTheOldest := by
  refine ⟨fun tag n s hs bad => ?refused, fun tag n s hs wf low high => ?taken⟩
  case refused => exact refuses_of_command (exec_takeClaims tag _ s) rfl hs fun t _ => runTakeClaims_refused bad t
  case taken =>
    refine takes_of_block (exec_takeClaims tag _ s) hs ?_
    exact (runTakeClaims_taken (s := s.onLink .countFrame) wf low high).trans (congrArg (·, _)
      (withClaims_countFrame { s with table := s.table.takenBy (s.claims.entries.take n.toNat) } _))

end Sys2Proof.Machine
end

section
/-! One examination of a SWEEP (R146, R147, R151, R152, R156, R161, R162, R165). -/

namespace Sys2Proof.Machine

/-! The slot examined, and the walk that goes on from it. -/

/-- R161, R165: an engine that runs a SWEEP examines its current slot. -/
theorem sweep_happens {s u : State} {e : EngineContext} (running : s.engine = some e) (sweep : e.op = .sweep)
    (h : s.examineSweep e = u) : Happens .sweepExamination s u := by
  refine happens_of_done (show execSweepExamination s = u.done from ?_)
  simp only [execSweepExamination, running, sweep, h]
theorem at_of_mem {t : TitleTable} (wf : t.wf) {n : Nat} {r : TitleRecord} (mem : (n, r) ∈ t.slots) : t.at n = some r := by
  cases held : t.at n with
  | none =>
    have free := List.find?_eq_none.1 (Option.map_eq_none_iff.1 held) _ mem
    simp at free
  | some x => exact congrArg _ (congrArg Prod.snd (slot_unique wf (at_mem held) mem rfl))
theorem at_of_free {t : TitleTable} {n : Nat} (free : ∀ x ∈ t.slots, x.1 ≠ n) : t.at n = none := by
  simpa [TitleTable.at] using free
/-- R161, R162: a SWEEP goes on, or has walked to slot 8192. -/
theorem goOn_sweep {e : EngineContext} (sweep : e.op = .sweep) (u : State) : u.goOn e =
    if e.current < 8192 then { u with engine := some e } else u.completed .normal e 8192 (.sweep e.raised e.owed) := by
  unfold State.goOn Config.titleSlots
  obtain inside | walked := Nat.lt_or_ge e.current 8192
  · rw [if_neg (Nat.not_le.2 inside), if_pos inside]
  · rw [if_pos walked, if_neg (Nat.not_lt.2 walked)]
    simp only [State.complete, sweep, Operation.walked]
    rfl
theorem examineSweep_free {s : State} {e : EngineContext} (free : ∀ x ∈ s.table.slots, x.1 ≠ e.current) :
    s.examineSweep e = s.goOn (e.pass false) := by
  simp only [State.examineSweep, at_of_free free]
theorem examineSweep_monograph {s : State} {e : EngineContext} {r : TitleRecord} {m : MonographPart} (wf : s.table.wf)
    (mem : (e.current, r) ∈ s.table.slots) (body : r.body = .monograph m) :
    s.examineSweep e = if s.monographOverdue r m then (s.sweepMonograph e r m).1.goOn ((s.sweepMonograph e r m).2.pass true)
      else s.goOn (e.pass true) := by
  simp only [State.examineSweep, at_of_mem wf mem, body]
  split <;> rfl
theorem examineSweep_serial {s : State} {e : EngineContext} {r : TitleRecord} {p : SerialPart} (wf : s.table.wf)
    (mem : (e.current, r) ∈ s.table.slots) (body : r.body = .serial p) :
    s.examineSweep e = if s.serialOverdue r p then (s.sweepSerial e r p).1.goOn ((s.sweepSerial e r p).2.pass true)
      else s.goOn (e.pass true) := by
  simp only [State.examineSweep, at_of_mem wf mem, body]
  split <;> rfl

/-! What is overdue. -/

/-- R151. -/
theorem monographOverdue_iff (s : State) (r : TitleRecord) (m : MonographPart) : s.monographOverdue r m = true ↔
    r.status = .expected ∧ (∃ due, m.due = some due ∧ due + s.claims.grace < s.table.today) ∧ (m.claim = .none ∨ m.claim = .owed) := by
  cases due : m.due <;> simp [State.monographOverdue, due, and_assoc]
/-- R152. -/
theorem serialOverdue_iff (s : State) (r : TitleRecord) (p : SerialPart) : s.serialOverdue r p = true ↔
    r.status = .expected ∧ 0 < p.dayLag ∧ r.lastArrival.getD r.announceDay + p.dayLag < s.table.today := by
  rw [State.serialOverdue, decide_eq_true_iff]
  refine and_congr_right fun _ => and_congr_right fun _ => ?_
  omega
theorem today_of_day {t : TitleTable} {day : Nat} (h : t.day = some day) : t.today = day := by
  simp [TitleTable.today, h]

/-! A MONOGRAPH raised. -/

theorem withClaims_same (s : State) : s.withClaims s.claims = s := if_pos rfl
/-- R147: with room in the list the entry is appended and the record LISTED. -/
theorem sweepMonograph_listed {s : State} (room : s.claims.entries.length < 256) (e : EngineContext) (r : TitleRecord)
    (m : MonographPart) : s.sweepMonograph e r m =
      (State.withClaims (s.putRecord e.current { r with body := .monograph { m with claim := .listed } })
          { s.claims with
            entries := s.claims.entries ++ [⟨r.key, .monograph (r.q - m.copies), r.q, .overdue, s.table.today⟩] },
        { e with raised := e.raised + 1 }) := by
  simp only [State.sweepMonograph, raiseMonograph_appended room, if_true, withClaims_putRecord]
/-- R147: with the list full the record is OWED. -/
theorem sweepMonograph_owed {s : State} (full : ¬ s.claims.entries.length < 256) (e : EngineContext) (r : TitleRecord)
    (m : MonographPart) : s.sweepMonograph e r m =
      (s.putRecord e.current { r with body := .monograph { m with claim := .owed } }, { e with owed := e.owed + 1 }) := by
  simp only [State.sweepMonograph, raiseMonograph_refused full, Bool.false_eq_true, if_false, withClaims_same]

/-- Settles O34: an overdue MONOGRAPH, a record that is not overdue, a free slot. -/
theorem sweepExaminesOneSlot : Obligations.SweepExaminesOneSlot := by
  refine ⟨fun s e r m due day wf running sweep mem body expected hdue hday late claim => ?overdue,
    fun s e r wf running sweep mem hday mono serial => ?notOverdue, fun s e running sweep free => ?free⟩
  case overdue =>
    have today := today_of_day hday
    have overdue : s.monographOverdue r m = true :=
      (monographOverdue_iff s r m).2 ⟨expected, ⟨due, hdue, by rwa [today]⟩, claim⟩
    refine ⟨_, _, _, place_puts_of_mem wf mem rfl, rfl, rfl, sweep_happens running sweep ?_⟩
    rw [examineSweep_monograph wf mem body, if_pos overdue]
    by_cases room : s.claims.entries.length < 256
    · rw [sweepMonograph_listed room, goOn_sweep (by exact sweep), today]
      simp only [room, if_true]
      rfl
    · rw [sweepMonograph_owed room, goOn_sweep (by exact sweep)]
      simp only [room, if_false]
      rfl
  case notOverdue =>
    refine sweep_happens running sweep ?_
    cases body : r.body with
    | monograph m =>
      have punctual : ¬ s.monographOverdue r m = true := by
        rw [monographOverdue_iff]
        rintro ⟨expected, ⟨due, hdue, late⟩, claim⟩
        obtain status | early | listed | taken := mono m body
        · exact status expected
        · exact Nat.not_lt.2 (early due hdue) late
        · simp [listed] at claim
        · simp [taken] at claim
      rw [examineSweep_monograph wf mem body, if_neg punctual, goOn_sweep (by exact sweep)]
      rfl
    | serial p =>
      have punctual : ¬ s.serialOverdue r p = true := by
        rw [serialOverdue_iff]
        rintro ⟨expected, lag, late⟩
        obtain status | none | early := serial p body
        · exact status expected
        · exact Nat.lt_irrefl 0 (none ▸ lag)
        · exact Nat.not_lt.2 early late
      rw [examineSweep_serial wf mem body, if_neg punctual, goOn_sweep (by exact sweep)]
      rfl
  case free =>
    refine sweep_happens running sweep ?_
    rw [examineSweep_free free, goOn_sweep (by exact sweep)]
    rfl

end Sys2Proof.Machine
end

section
/-! A SWEEP at an overdue SERIAL (R146, R152, R156, R165): the runs it raises one after another. -/

namespace Sys2Proof.Machine

/-! The runs raised. -/

theorem start_mem {rs : List (Nat × Nat)} {P : Nat → Prop} (h : areRunsOf rs P) {y : Nat × Nat} (hy : y ∈ rs) : P y.1 :=
  (h.1 y.1).1 ⟨y, hy, Nat.le_refl _, h.2.2 y hy⟩
/-- An ordinal just below the lowest run lengthens it. -/
theorem areRunsOf_cons_joined {x b : Nat} {t : List Nat} {rs : List (Nat × Nat)}
    (h : areRunsOf ((x + 1, b) :: rs) (· ∈ t)) : areRunsOf ((x, b) :: rs) (· ∈ x :: t) := by
  obtain ⟨up, low, others⟩ := (areRunsOf_cons_iff ..).1 h
  refine (areRunsOf_cons_iff ..).2 ⟨by omega, fun z near => ?_, areRunsOf_congr others fun z => ?_⟩
  · rw [List.mem_cons, low z near]
    omega
  · rw [List.mem_cons]
    exact and_congr_left fun far => (or_iff_right (by omega)).symm
/-- An ordinal below runs that do not adjoin it is a run of its own. -/
theorem areRunsOf_cons_alone {x : Nat} {t : List Nat} {rs : List (Nat × Nat)} (least : ∀ z ∈ t, x < z) (h : areRunsOf rs (· ∈ t))
    (apart : ∀ y ∈ rs, y.1 ≠ x + 1) : areRunsOf ((x, x) :: rs) (· ∈ x :: t) := by
  have far (z : Nat) (hz : z ∈ t) : x + 1 < z := by
    have above := least z hz
    suffices z ≠ x + 1 by omega
    rintro rfl
    obtain ⟨y, hy, low, high⟩ := (h.1 _).2 hz
    have start := least y.1 (start_mem h hy)
    exact apart y hy (by omega)
  refine (areRunsOf_cons_iff ..).2 ⟨Nat.le_refl x, fun z near => ?_, areRunsOf_congr h fun z => ?_⟩
  · rw [List.mem_cons, or_iff_left fun hz => Nat.not_le.2 (far z hz) near]
    omega
  · rw [List.mem_cons]
    exact ⟨fun hz => ⟨.inr hz, far z hz⟩, fun ⟨hz, above⟩ => hz.resolve_left (by omega)⟩
/-- R47, R50, R152: rising ordinals gathered are their maximal runs. -/
theorem areRunsOf_runs {xs : List Nat} (rising : xs.Pairwise (· < ·)) : areRunsOf (runs xs) (· ∈ xs) := by
  induction xs with
  | nil => exact (areRunsOf_nil_iff _).2 fun _ => List.not_mem_nil
  | cons x t ih =>
    obtain ⟨least, rising_t⟩ := List.pairwise_cons.1 rising
    have gathered := ih rising_t
    by_cases joins : ∃ b rest, runs t = (x + 1, b) :: rest
    · obtain ⟨b, rest, first⟩ := joins
      rw [runs_cons_joined first]
      exact areRunsOf_cons_joined (first ▸ gathered)
    · have apart : ∀ y ∈ runs t, y.1 ≠ x + 1 := by
        generalize runs t = rs at gathered joins
        obtain - | ⟨⟨a, b⟩, rest⟩ := rs
        · exact fun y hy => absurd hy List.not_mem_nil
        · have start := least a (start_mem gathered List.mem_cons_self)
          have first : a ≠ x + 1 := by
            rintro rfl
            exact joins ⟨b, rest, rfl⟩
          obtain ⟨up, -, others⟩ := (areRunsOf_cons_iff ..).1 gathered
          refine List.forall_mem_cons.2 ⟨first, fun y hy => ?_⟩
          have later := (start_mem others hy).2
          omega
      rw [runs_cons_alone apart]
      exact areRunsOf_cons_alone least gathered apart
/-- R152: an ordinal of the window that an overdue serial raises: incomplete, unflagged, and at most one past the highest received, or the
base while none is. -/
def SerialPart.overdueAt (p : SerialPart) (q x : Nat) : Prop :=
  p.w ≤ x ∧ x < p.w + 64 ∧ (∀ h, p.h = some h → x ≤ h + 1) ∧ (p.h = none → x = p.w) ∧ (p.cell x).count < q ∧ (p.cell x).claimed = false
theorem overdueRuns_areRuns (p : SerialPart) (q : Nat) : areRunsOf (p.overdueRuns q) (p.overdueAt q) := by
  refine areRunsOf_congr (areRunsOf_runs (rising_filter _ _ _)) fun x => ?_
  rw [List.mem_filter, List.mem_range'_1, claimable_iff, and_assoc]
  unfold SerialPart.overdueAt Config.windowSize
  refine and_congr_right fun from_w => ?_
  cases p.h with
  | none =>
    simp only [reduceCtorEq, false_implies, forall_const, true_and, ← and_assoc]
    exact and_congr_left fun _ => and_congr_left fun _ => by omega
  | some h =>
    simp only [Option.some.injEq, reduceCtorEq, false_implies, forall_eq', true_and, ← and_assoc]
    exact and_congr_left fun _ => and_congr_left fun _ => by omega

/-! The raises. -/

theorem entered_length_le (c : ClaimList) (k : Key) (q day : Nat) (cause : ClaimCause) (ys : List (Nat × Nat)) :
    (c.entered k q day cause ys).length ≤ ys.length := by
  induction ys generalizing c with
  | nil => exact Nat.le_refl 0
  | cons y ys ih =>
    have rest := ih (c.raiseIssues k y.1 y.2 q cause day).1
    simp only [ClaimList.entered, List.length_cons]
    split
    · exact Nat.succ_le_succ rest
    · exact Nat.le_succ_of_le rest
/-- R146, R165: what the raises of a SWEEP leave: the arrival's step, and the runs entered and refused counted. -/
theorem sweepRaises_eq (k : Key) (q : Nat) (ys : List (Nat × Nat)) (a : ArrivalStep) (e : EngineContext) :
    (ys.foldl (sweepRaise k q) (a, e)).1 = ys.foldl (fun a y => a.raise k q .overdue y) a ∧
    (ys.foldl (sweepRaise k q) (a, e)).2 =
      { e with
        raised := e.raised + (a.state.claims.entered k q a.state.table.today .overdue ys).length
        owed := e.owed + (ys.length - (a.state.claims.entered k q a.state.table.today .overdue ys).length) } := by
  induction ys generalizing a e with
  | nil => exact ⟨rfl, rfl⟩
  | cons y ys ih =>
    have fewer := entered_length_le (a.state.claims.raiseIssues k y.1 y.2 q .overdue a.state.table.today).1 k q a.state.table.today
      .overdue ys
    rw [List.foldl_cons, List.foldl_cons, sweepRaise]
    obtain ⟨step, counts⟩ := ih (a.raise k q .overdue y)
      (if (a.state.claims.raiseIssues k y.1 y.2 q .overdue a.state.table.today).2 then { e with raised := e.raised + 1 }
        else { e with owed := e.owed + 1 })
    refine ⟨step, counts.trans ?_⟩
    simp only [ArrivalStep.raise, withClaims_fields, ClaimList.entered]
    split
    · simp only [List.length_cons, EngineContext.mk.injEq, true_and, and_true]
      omega
    · simp only [List.length_cons, EngineContext.mk.injEq, true_and, and_true]
      omega
/-- R53: the OVERDUE runs that are entered are flagged. -/
theorem overdueRaises_part (a : ArrivalStep) (k : Key) (q : Nat) (ys : List (Nat × Nat)) :
    (ys.foldl (fun a y => a.raise k q .overdue y) a).part =
      a.part.flagRanges (a.state.claims.entered k q a.state.table.today .overdue ys) := by
  induction ys generalizing a with
  | nil => rfl
  | cons y ys ih =>
    rw [List.foldl_cons, ih]
    simp only [ArrivalStep.raise, withClaims_fields, ClaimList.entered]
    cases (a.state.claims.raiseIssues k y.1 y.2 q .overdue a.state.table.today).2 <;> rfl
/-- R44: flagging changes the cells alone. -/
theorem flagRanges_cells (p : SerialPart) (ys : List (Nat × Nat)) : p.flagRanges ys = { p with cells := (p.flagRanges ys).cells } := by
  obtain ⟨moves, w, h⟩ := foldl_keeps (P := fun p' : SerialPart => p.moved p' ∧ p'.w = p.w ∧ p'.h = p.h)
    (f := fun p y => p.flagRange y.1 y.2) (fun p' y ⟨moves, w, h⟩ => by
      obtain ⟨moves', w', h', -⟩ := flagRange_keeps p' y.1 y.2
      exact ⟨moved_trans moves moves', w'.trans w, h'.trans h⟩) ys p ⟨moved_refl p, rfl, rfl⟩
  unfold SerialPart.moved at moves
  rw [w, h] at moves
  exact moves
/-- R152, R165: a SWEEP at an overdue SERIAL: its requests to the claim list, its cells flagged, its answers counted. -/
theorem sweepSerial_eq (s : State) (e : EngineContext) (r : TitleRecord) (p : SerialPart) :
    s.sweepSerial e r p =
      ({ s.claimsAfter r.key r.q ((p.overdueRuns r.q).map fun y => .raise y.1 y.2 .overdue) with
          table := s.table.place e.current
            { r with body := .serial (p.flagRanges (s.claims.entered r.key r.q s.table.today .overdue (p.overdueRuns r.q))) } },
        { e with
          raised := e.raised + (s.claims.entered r.key r.q s.table.today .overdue (p.overdueRuns r.q)).length
          owed := e.owed + ((p.overdueRuns r.q).length -
            (s.claims.entered r.key r.q s.table.today .overdue (p.overdueRuns r.q)).length) }) := by
  obtain ⟨step, counts⟩ := sweepRaises_eq r.key r.q (p.overdueRuns r.q) ⟨s, p, .none⟩ e
  obtain ⟨asked, -⟩ := foldl_asks (fun a y => raise_asks a r.key r.q .overdue y) (p.overdueRuns r.q) ⟨s, p, .none⟩
  simp only [State.sweepSerial, step, counts, overdueRaises_part, asked, State.putRecord, claimsAfter_fields]

/-- Settles O35: the runs raised, those entered flagged and counted, and the edges of the claim list. -/
theorem sweepRaisesOverdueSerials : Obligations.SweepRaisesOverdueSerials := by
  intro s e r p day wf wf_p running sweep mem body expected lag hday late
  have today := today_of_day hday
  have overdue : s.serialOverdue r p = true := (serialOverdue_iff s r p).2 ⟨expected, lag, by rwa [today]⟩
  refine ⟨p.flagRanges (s.claims.entered r.key r.q day .overdue (p.overdueRuns r.q)), _, p.overdueRuns r.q, _, _, _,
    place_puts_of_mem wf mem rfl, flagRanges_cells p _, ?cells, ?runs, rfl, fun x low high => ?flags, rfl, rfl,
    sweep_happens running sweep ?examined⟩
  case cells => exact (flagRanges_fields p _).2.trans wf_p.1
  case runs =>
    refine areRunsOf_congr (overdueRuns_areRuns p r.q) fun x => ?_
    unfold SerialPart.overdueAt
    cases p.h <;> simp
  case flags =>
    obtain ⟨count, claimed⟩ := cell_flagRanges p (s.claims.entered r.key r.q day .overdue (p.overdueRuns r.q)) x
    refine ⟨count, claimed.trans (or_congr_right (and_iff_left ⟨low, ?_⟩))⟩
    rw [wf_p.1]
    exact high
  case examined =>
    rw [examineSweep_serial wf mem body, if_pos overdue, sweepSerial_eq, goOn_sweep (by exact sweep), today]
    rfl

end Sys2Proof.Machine
end

section
/-! FIND, SWEEP, PURGE and ABORT (R160 to R164, R167, R170): the checks of a long command, its acceptance, and its end. -/

namespace Sys2Proof.Machine

theorem exec_find (tag : Byte) (body : Body FindFields) (s : State) :
    exec (.find tag body) s = s.command 0x30#8 tag body fun f s =>
      if FindField.limit f.field < f.value.toNat ∨ Config.titleSlots < f.start.toNat then (s, refuse .invalid)
      else s.accept (.find f) f.start.toNat := rfl
theorem exec_sweep (tag : Byte) (body : Body Unit) (s : State) :
    exec (.sweep tag body) s = s.command 0x31#8 tag body fun _ s => s.accept .sweep 0 := rfl
theorem exec_purge (tag : Byte) (body : Body Unit) (s : State) :
    exec (.purge tag body) s = s.command 0x32#8 tag body fun _ s => s.accept .purge 0 := rfl
theorem exec_abort (tag : Byte) (body : Body Unit) (s : State) :
    exec (.abort tag body) s = s.command 0x33#8 tag body fun _ s => s.runAbort := rfl

/-! The end of an operation, and a walk that goes on. -/

theorem complete_find {e : EngineContext} {f : FindFields} (find : e.op = .find f) (s : State) (t : Termination) (next : Nat)
    (hit : Option Hit) : s.complete e t next hit = s.completed t e next (.find hit) := by
  simp only [State.complete, find]
  rfl
theorem complete_purge {e : EngineContext} (purge : e.op = .purge) (s : State) (t : Termination) (next : Nat) (hit : Option Hit) :
    s.complete e t next hit = s.completed t e next (.purge e.freed) := by
  simp only [State.complete, purge]
  rfl
theorem goOn_eq (s : State) (e : EngineContext) : s.goOn e =
    if e.current < 8192 then { s with engine := some e } else s.complete e e.op.walked 8192 none := by
  unfold State.goOn Config.titleSlots
  obtain inside | walked := Nat.lt_or_ge e.current 8192
  · rw [if_neg (Nat.not_le.2 inside), if_pos inside]
  · rw [if_pos walked, if_neg (Nat.not_lt.2 walked)]
/-- R161, R164: a FIND that has met no record is NOT SATISFIED at slot 8192. -/
theorem goOn_find {e : EngineContext} {f : FindFields} (find : e.op = .find f) (s : State) : s.goOn e =
    if e.current < 8192 then { s with engine := some e } else s.completed .notSatisfied e 8192 (.find none) := by
  rw [goOn_eq, complete_find find, find, Operation.walked]
/-- R161, R166: a PURGE ends at slot 8192. -/
theorem goOn_purge {e : EngineContext} (purge : e.op = .purge) (s : State) : s.goOn e =
    if e.current < 8192 then { s with engine := some e } else s.completed .normal e 8192 (.purge e.freed) := by
  rw [goOn_eq, complete_purge purge, purge, Operation.walked]

/-! The checks, and the acceptance. -/

/-- R163: the check of a FIND's parameters is the one the rule states. -/
theorem find_inRange_iff (f : FindFields) : (Operation.find f).inRange ↔
    ¬ (FindField.limit f.field < f.value.toNat ∨ Config.titleSlots < f.start.toNat) := by
  have value : (match f.field with
      | .copiesOutstanding => f.value.toNat ≤ 4
      | .dueDay => f.value.toNat ≤ 65535
      | .publisherCode => f.value.toNat ≤ 999999
      | .lastArrivalDay => f.value.toNat ≤ 65535) ↔ f.value.toNat ≤ FindField.limit f.field := by
    cases f.field <;> exact Iff.rfl
  rw [not_or, Nat.not_lt, Nat.not_lt, and_comm]
  exact and_congr_right fun _ => value
theorem accept_running {s : State} {e : EngineContext} (running : s.engine = some e) (op : Operation) (n : Nat) :
    s.accept op n = (s, .refused .busy (.operationInProgress e.op.kind)) := by
  simp only [State.accept, running]
theorem accept_noDay {s : State} (idle : s.engine = none) (unset : s.table.day = none) (n : Nat) :
    s.accept .sweep n = (s, .refused .notReady (.notReady false true false)) := by
  simp only [State.accept, idle, unset, and_self, if_true]
theorem accept_full {s : State} {op : Operation} (idle : s.engine = none) (day : op = .sweep → s.table.day ≠ none)
    (full : 16 ≤ s.report.usedNonItem) (n : Nat) : s.accept op n = (s, .refused .busy .noReportSpace) := by
  have room : s.report.nonItemRoom = false := decide_eq_false (Nat.not_lt.2 full)
  simp only [State.accept, idle]
  rw [if_neg fun ⟨sweep, unset⟩ => day sweep unset, if_pos (by rw [room]; rfl)]
/-- R160: a command that passes every check reserves its completion record's slot, and its walk begins. -/
theorem accept_taken {s : State} {op : Operation} (idle : s.engine = none) (day : op = .sweep → s.table.day ≠ none)
    (room : s.report.usedNonItem < 16) (n : Nat) : s.accept op n =
      (State.goOn { s with report := { s.report with reservedNonItem := s.report.reservedNonItem + 1 } } (newContext op n),
        .accepted (.operation op.kind n)) := by
  have free : s.report.nonItemRoom = true := decide_eq_true room
  simp only [State.accept, idle]
  rw [if_neg fun ⟨sweep, unset⟩ => day sweep unset, if_neg (by rw [free]; exact Bool.false_ne_true)]
  rfl

/-- R160, R164: a FIND that starts at slot 8192 fills the slot it has just reserved. -/
theorem accept_find_walked {s : State} (idle : s.engine = none) (room : s.report.usedNonItem < 16) (f : FindFields) :
    s.accept (.find f) 8192 =
      ({ s with report := s.report.fill (.completion ⟨.notSatisfied, 8192, 8192, 0, .find none⟩) },
        .accepted (.operation .find 8192)) := by
  rw [accept_taken (op := .find f) idle nofun room, goOn_find (f := f) (by rfl), newContext, if_neg (Nat.lt_irrefl 8192), State.completed,
    ReportUnit.fillCompletion, ← idle]
  rfl

/-- R160: a long command whose parameters are in range happens as its acceptance does. -/
theorem takes_of_accept {tag : Byte} {op : Operation} {s u : State} {b : ReplyBody} (hs : s.listens) (ok : op.inRange)
    (h : (s.onLink .countFrame).accept op op.startSlot = (u.onLink .countFrame, b)) :
    Takes (op.command tag).1 s (op.command tag).2 tag b u := by
  cases op with
  | find f => exact takes_of_block (exec_find tag _ s) hs ((if_neg ((find_inRange_iff f).1 ok)).trans h)
  | sweep => exact takes_of_block (exec_sweep tag _ s) hs h
  | purge => exact takes_of_block (exec_purge tag _ s) hs h
/-- R163: only the parameters of a FIND can be out of range. -/
theorem refuses_outOfRange {tag : Byte} {op : Operation} {s : State} (hs : s.listens) (bad : ¬ op.inRange) :
    Refuses (op.command tag).1 s (op.command tag).2 tag .invalid .none := by
  cases op with
  | find f => exact takes_of_block (exec_find tag _ s) hs (if_pos (not_not.1 (mt (find_inRange_iff f).2 bad)))
  | sweep => exact absurd trivial bad
  | purge => exact absurd trivial bad

/-- Settles O31: the four checks in order, a walk that begins, and a FIND with no slot before it. -/
theorem longCommandsAreAccepted : Obligations.LongCommandsAreAccepted := by
  refine ⟨fun tag op s hs bad => refuses_outOfRange hs bad,
    fun tag op e s hs ok running => takes_of_accept hs ok (accept_running (s := s.onLink .countFrame) running op _),
    fun tag s hs idle unset =>
      takes_of_accept (op := .sweep) hs trivial (accept_noDay (s := s.onLink .countFrame) idle unset _),
    fun tag op s hs ok idle day full =>
      takes_of_accept hs ok (accept_full (s := s.onLink .countFrame) idle day full _),
    fun tag op s hs ok idle day room below => ?begun, fun tag f s hs ok idle room last => ?walked⟩
  case begun =>
    refine takes_of_accept hs ok ((accept_taken (s := s.onLink .countFrame) idle day room _).trans ?_)
    rw [goOn_eq, newContext, if_pos below]
    rfl
  case walked =>
    refine takes_of_accept (op := .find f) hs ok ?_
    rw [Operation.startSlot, last]
    exact accept_find_walked (s := s.onLink .countFrame) idle room f

/-! ABORT. -/

theorem runAbort_idle {s : State} (idle : s.engine = none) : s.runAbort = (s, .refused .badState .none) := by
  simp only [State.runAbort, idle, refuse]
theorem runAbort_running {s : State} {e : EngineContext} (running : s.engine = some e) :
    s.runAbort = (s.complete e .aborted e.current none, .done (.operation e.op.kind e.current)) := by
  simp only [State.runAbort, running]

/-! Examinations without their operation. -/

theorem execFindExamination_other {s : State} (other : ∀ e f, s.engine = some e → e.op ≠ .find f) :
    execFindExamination s = s.done := by
  unfold execFindExamination
  cases running : s.engine with
  | none => rfl
  | some e =>
    cases op : e.op with
    | find f => exact absurd op (other e f running)
    | sweep | purge => simp only [op]
theorem execSweepExamination_other {s : State} (other : ∀ e, s.engine = some e → e.op ≠ .sweep) :
    execSweepExamination s = s.done := by
  unfold execSweepExamination
  cases running : s.engine with
  | none => rfl
  | some e =>
    cases op : e.op with
    | sweep => exact absurd op (other e running)
    | find f | purge => simp only [op]
theorem execPurgeExamination_other {s : State} (other : ∀ e, s.engine = some e → e.op ≠ .purge) :
    execPurgeExamination s = s.done := by
  unfold execPurgeExamination
  cases running : s.engine with
  | none => rfl
  | some e =>
    cases op : e.op with
    | purge => exact absurd op (other e running)
    | find f | sweep => simp only [op]

/-- Settles O32: ABORT of an IDLE and of a RUNNING engine, then the three examinations without their operation. -/
theorem abortEndsTheOperation : Obligations.AbortEndsTheOperation := by
  refine ⟨fun tag s hs idle => takes_of_block (exec_abort tag _ s) hs (runAbort_idle (s := s.onLink .countFrame) idle),
    fun tag e s hs running => ?aborted,
    fun s other => happens_of_done (execFindExamination_other other),
    fun s other => happens_of_done (execSweepExamination_other other),
    fun s other => happens_of_done (execPurgeExamination_other other)⟩
  case aborted =>
    refine takes_of_block (exec_abort tag _ s) hs ((runAbort_running (s := s.onLink .countFrame) running).trans ?_)
    cases op : e.op <;> simp only [State.complete, op] <;> rfl

end Sys2Proof.Machine
end

section
/-! One examination of a FIND and of a PURGE (R161 to R164, R166). -/

namespace Sys2Proof.Machine

/-! A FIND. -/

/-- R161, R164: an engine that runs a FIND examines its current slot. -/
theorem find_happens {s u : State} {e : EngineContext} {f : FindFields} (running : s.engine = some e) (find : e.op = .find f)
    (h : s.examineFind e f = u) : Happens .findExamination s u := by
  refine happens_of_done (show execFindExamination s = u.done from ?_)
  simp only [execFindExamination, running, find, h]
theorem compare_holds_iff (c : FindCompare) (v x : Nat) : FindCompare.holds c v x = true ↔
    match c with
    | .lessOrEqual => v ≤ x
    | .equal => v = x
    | .greaterOrEqual => x ≤ v := by
  cases c <;> exact decide_eq_true_iff
/-- R163: the value a record has for a field is the one the rule names. -/
theorem fieldValue_eq_some_iff (r : TitleRecord) (field : FindField) (v : Nat) : r.fieldValue field = some v ↔
    match field, r.body with
    | .copiesOutstanding, .monograph m => v = r.q - m.copies
    | .copiesOutstanding, .serial _ => v = 0
    | .dueDay, .monograph m => m.due = some v
    | .dueDay, .serial _ => False
    | .publisherCode, _ => v = r.publisher
    | .lastArrivalDay, _ => r.lastArrival = some v := by
  unfold TitleRecord.fieldValue
  cases field <;> cases r.body <;> simp [eq_comm]
/-- R163, R164: a FIND stops at the records that meet it. -/
theorem matches_iff_met (f : FindFields) (r : TitleRecord) : FindFields.matches_ f r = true ↔ FindFields.met f r := by
  have tombstone : (f.withdrawn || r.status != .withdrawn) = true ↔ f.withdrawn = true ∨ r.status ≠ .withdrawn := by
    rw [Bool.or_eq_true, bne_iff_ne]
  have value : (match r.fieldValue f.field with
      | some v => FindCompare.holds f.compare v f.value.toNat
      | none => false) = true ↔ ∃ v, r.fieldValue f.field = some v ∧ FindCompare.holds f.compare v f.value.toNat = true := by
    cases r.fieldValue f.field <;> simp
  unfold FindFields.matches_ FindFields.met
  rw [Bool.and_eq_true]
  refine and_congr tombstone (value.trans (exists_congr fun v => and_congr (fieldValue_eq_some_iff r f.field v) ?_))
  exact compare_holds_iff f.compare v f.value.toNat
theorem examineFind_free {s : State} {e : EngineContext} (free : ∀ x ∈ s.table.slots, x.1 ≠ e.current) (f : FindFields) :
    s.examineFind e f = s.goOn (e.pass false) := by
  simp only [State.examineFind, at_of_free free]
theorem examineFind_held {s : State} {e : EngineContext} {r : TitleRecord} (wf : s.table.wf) (mem : (e.current, r) ∈ s.table.slots)
    (f : FindFields) : s.examineFind e f =
      if FindFields.matches_ f r then
        s.complete (e.pass true) .normal (e.current + 1) (some ⟨e.current, r.key, r.kind, r.status⟩)
      else s.goOn (e.pass true) := by
  simp only [State.examineFind, at_of_mem wf mem]

/-! A PURGE. -/

/-- R161, R166: an engine that runs a PURGE examines its current slot. -/
theorem purge_happens {s u : State} {e : EngineContext} (running : s.engine = some e) (purge : e.op = .purge)
    (h : s.examinePurge e = u) : Happens .purgeExamination s u := by
  refine happens_of_done (show execPurgeExamination s = u.done from ?_)
  simp only [execPurgeExamination, running, purge, h]
theorem examinePurge_free {s : State} {e : EngineContext} (free : ∀ x ∈ s.table.slots, x.1 ≠ e.current) :
    s.examinePurge e = s.goOn (e.pass false) := by
  simp only [State.examinePurge, at_of_free free]
theorem examinePurge_held {s : State} {e : EngineContext} {r : TitleRecord} (wf : s.table.wf)
    (mem : (e.current, r) ∈ s.table.slots) : s.examinePurge e =
      if r.status = .withdrawn then (s.withTable (s.table.free e.current)).goOn { e.pass true with freed := e.freed + 1 }
      else s.goOn (e.pass true) := by
  simp only [State.examinePurge, at_of_mem wf mem]
/-- R16: a table has at most 8192 records. -/
theorem length_slots_le {t : TitleTable} (wf : t.wf) : t.slots.length ≤ 8192 := by
  obtain ⟨rising, below, -⟩ := wf
  have bound := (rising_length (t.slots.map (·.1)) 0 Config.titleSlots rising (fun n hn => by
    obtain ⟨e, he, rfl⟩ := List.mem_map.1 hn
    exact ⟨Nat.zero_le _, below e he⟩) (Nat.zero_le _)).1
  rwa [List.length_map] at bound
theorem length_free_lt {t : TitleTable} {n : Nat} {r : TitleRecord} (mem : (n, r) ∈ t.slots) :
    (t.free n).slots.length < t.slots.length :=
  List.length_filter_lt_length_iff_exists.2 ⟨(n, r), mem, by simp⟩
/-- R20, R166: a full table gives its edge when one of its slots is freed. -/
theorem withTable_free {s : State} {n : Nat} {r : TitleRecord} (wf : s.table.wf) (mem : (n, r) ∈ s.table.slots) :
    s.withTable (s.table.free n) =
      if s.table.slots.length = 8192 then
        State.deviceNotice { s with table := s.table.free n } .tableFull .falling .none
      else { s with table := s.table.free n } := by
  have fewer := length_free_lt mem
  have bound := length_slots_le wf
  have after : (s.table.free n).full = false := beq_eq_false_iff_ne.2 (by unfold Config.titleSlots; omega)
  unfold State.withTable
  by_cases full : s.table.slots.length = 8192
  · have before : s.table.full = true := beq_iff_eq.2 full
    simp [before, after, full, edgeOf]
  · have before : s.table.full = false := beq_eq_false_iff_ne.2 full
    simp [before, after, full]

/-- Settles O33: a FIND at a record it stops at, at another, and at a free slot; then a PURGE at a tombstone, at another record, and at a
free slot. -/
theorem findAndPurgeExamineOneSlot : Obligations.FindAndPurgeExamineOneSlot := by
  refine ⟨fun s e f r wf running find mem met => find_happens running find ?met,
    fun s e f r wf running find mem unmet => find_happens running find ?unmet,
    fun s e f running find free => find_happens running find ?findFree,
    fun s e r wf running purge mem withdrawn => ⟨_, _, _, rfl, rfl, rfl, purge_happens running purge ?tombstone⟩,
    fun s e r wf running purge mem standing => purge_happens running purge ?standing,
    fun s e running purge free => purge_happens running purge ?purgeFree⟩
  case met =>
    rw [examineFind_held wf mem, if_pos ((matches_iff_met f r).2 met), complete_find (by exact find)]
    rfl
  case unmet =>
    rw [examineFind_held wf mem, if_neg (mt (matches_iff_met f r).1 unmet), goOn_find (by exact find)]
    rfl
  case findFree =>
    rw [examineFind_free free, goOn_find (by exact find)]
    rfl
  case tombstone =>
    rw [examinePurge_held wf mem, if_pos withdrawn, withTable_free wf mem, goOn_purge (by exact purge)]
    rfl
  case standing =>
    rw [examinePurge_held wf mem, if_neg standing, goOn_purge (by exact purge)]
    rfl
  case purgeFree =>
    rw [examinePurge_free free, goOn_purge (by exact purge)]
    rfl

end Sys2Proof.Machine
end

section
/-! ECHO lanes, and the TEST ITEMs of TEST lanes (R173, R175). -/

namespace Sys2Proof.Machine

/-! ECHO. -/

/-- R67, R173: a valid record taken by an ECHO lane in ACTIVE, which is v once it has noted what the record reports. -/
theorem happens_echo {s : State} {l : LaneId} {r : StationRecord} {v : Lane} (active : (s.lane l).state = .active)
    (echo : (s.lane l).mode = .echo) (valid : r.wf = true)
    (reported : (s.setLane l (s.lane l).heard).reportOf l r = s.setLane l v) :
    Happens (eventOf l r) s (s.setLane l
      (Lane.produce { v with test := { v.test with echoed := bump v.test.echoed } } (.echo r))) := by
  have mode : ((s.setLane l (s.lane l).heard).lane l).mode = .echo := by rwa [lane_setLane_same]
  refine happens_of_receive ((receive_active active valid _).trans ?_)
  rw [restartSilence_eq, State.takeRecord, if_pos mode, reported, echo_setLane]

/-! The TEST ITEMs of one taking. -/

theorem testItem_unchanged (v : Lane) : v.testItem.mode = v.mode ∧ v.testItem.state = v.state := by
  unfold Lane.testItem
  rw [produce_eq]
  exact ⟨rfl, rfl⟩
theorem length_outstanding_testItem (v : Lane) : v.testItem.test.outstanding.length = v.test.outstanding.length + 1 := by
  unfold Lane.testItem
  rw [produce_eq]
  exact List.length_append
theorem testItems_room {v : Lane} (active : v.state = .active) (room : v.test.outstanding.length < 4) (n : Nat) :
    v.testItems (n + 1) = v.testItem.testItems n := if_pos ⟨active, room⟩
theorem testItems_full {v : Lane} (full : 4 ≤ v.test.outstanding.length) (n : Nat) : v.testItems n = v := by
  cases n with
  | zero => rfl
  | succ n => exact if_neg fun both => absurd both.2 (Nat.not_lt.2 full)
/-- R175: the sending ends with 4 outstanding, so that a bound which allows for these sends no fewer than a higher one. -/
theorem testItems_enough (n : Nat) {v : Lane} (active : v.state = .active) (enough : 4 ≤ v.test.outstanding.length + n) :
    v.testItems (n + 1) = v.testItems n := by
  induction n generalizing v with
  | zero => rw [testItems_full enough, testItems_full enough]
  | succ n ih =>
    obtain room | full := Nat.lt_or_ge v.test.outstanding.length 4
    · have active' : v.testItem.state = .active := (testItem_unchanged v).2.trans active
      have enough' : 4 ≤ v.testItem.test.outstanding.length + n := by
        rw [length_outstanding_testItem]
        omega
      rw [testItems_room active room, testItems_room active room, ih active' enough']
    · rw [testItems_full full, testItems_full full]
/-- R175: a TEST lane with 4 outstanding sends no TEST ITEM. -/
theorem feedTest_full {s : State} {l : LaneId} (full : 4 ≤ (s.lane l).test.outstanding.length) : s.feedTest l = s := by
  rw [State.feedTest, State.onLane, testItems_full full, ite_self, setLane_self]
/-- R175: a TEST lane with room sends one TEST ITEM, and then what it sends after it. -/
theorem feedTest_room {s : State} {l : LaneId} (test : (s.lane l).mode = .test) (active : (s.lane l).state = .active)
    (room : (s.lane l).test.outstanding.length < 4) : s.feedTest l = (s.setLane l (s.lane l).testItem).feedTest l := by
  obtain ⟨mode, state⟩ := testItem_unchanged (s.lane l)
  have sent : (s.lane l).testItems 4 = (s.lane l).testItem.testItems 4 := by
    have enough : 4 ≤ (s.lane l).testItem.test.outstanding.length + 3 := by
      rw [length_outstanding_testItem]
      omega
    rw [testItems_room active room, testItems_enough 3 (state.trans active) enough]
  rw [State.feedTest, State.feedTest, onLane_setLane, State.onLane, if_pos test, if_pos (mode.trans test)]
  exact congrArg (s.setLane l) sent

/-! The generator and the test identifier. -/

/-- R175: the shift leaves the lowest bit clear for the feedback. -/
theorem toNat_generatorStep (g : BitVec 15) :
    (generatorStep g).toNat = 2 * g.toNat % 32768 + if g.getLsbD 14 = g.getLsbD 13 then 0 else 1 := by
  have shifted : (g <<< 1).toNat = 2 ^ 1 * (g.toNat % 16384) := by
    rw [BitVec.toNat_shiftLeft, Nat.shiftLeft_eq]
    omega
  have feedback : (if g.getLsbD 14 != g.getLsbD 13 then 1#15 else 0#15).toNat =
      if g.getLsbD 14 = g.getLsbD 13 then 0 else 1 := by
    by_cases same : g.getLsbD 14 = g.getLsbD 13
    · rw [if_pos same, if_neg (mt bne_iff_ne.1 (not_not.2 same))]
      rfl
    · rw [if_neg same, if_pos (bne_iff_ne.2 same)]
      rfl
  have bit : (if g.getLsbD 14 = g.getLsbD 13 then 0 else 1) < 2 ^ 1 := by split <;> decide
  rw [generatorStep, BitVec.toNat_or, shifted, feedback, ← Nat.two_pow_add_eq_or_of_lt bit]
  omega
theorem lt_ten_of_mem_decimal {n v d : Nat} (h : d ∈ decimal n v) : d < 10 := by
  induction n generalizing v with
  | zero => simp [decimal] at h
  | succ n ih =>
    obtain high | rfl := by simpa only [decimal, List.mem_append, List.mem_singleton] using h
    · exact ih high
    · exact Nat.mod_lt _ (by decide)
theorem digitChar_of_lt {d : Nat} (h : d < 10) : digitChar d = BitVec.ofNat 8 (0x30 + d) := if_neg (by omega)
theorem testCheck_lt (v : BitVec 15) : testCheck v < 10 := Nat.mod_lt _ (by decide)
/-- R175: a test identifier holds digits alone. -/
theorem testIdentifier_eq (v : BitVec 15) :
    testIdentifier v = (testDigits v ++ [testCheck v]).map fun d => BitVec.ofNat 8 (0x30 + d) := by
  refine List.map_congr_left fun d mem => digitChar_of_lt ?_
  simp only [testDigits, List.mem_append, List.mem_singleton] at mem
  obtain (front | value) | rfl := mem
  · exact (by decide : ∀ d ∈ [9, 9, 0, 0, 0, 0], d < 10) d front
  · exact lt_ten_of_mem_decimal value
  · exact testCheck_lt v
/-- R5, R175: the front 990000 weighs 36 in the check digit. -/
theorem altCheck_test (a b c d e : Nat) :
    altCheck [9, 9, 0, 0, 0, 0, a, b, c, d, e] = (10 - (36 + (a + 3 * b + c + 3 * d + e)) % 10) % 10 := by
  have weighed : altSum [9, 9, 0, 0, 0, 0, a, b, c, d, e] = 36 + (a + 3 * b + c + 3 * d + e) := by
    simp only [altSum]
    omega
  rw [altCheck, weighed]
theorem exists_testDigits (v : BitVec 15) : ∃ a b c d e : Nat, a < 10 ∧ b < 10 ∧ c < 10 ∧ d < 10 ∧ e < 10 ∧
    v.toNat = (((a * 10 + b) * 10 + c) * 10 + d) * 10 + e ∧ testDigits v = [9, 9, 0, 0, 0, 0, a, b, c, d, e] := by
  have below : v.toNat < 32768 := v.isLt
  refine ⟨v.toNat / 10 / 10 / 10 / 10 % 10, v.toNat / 10 / 10 / 10 % 10, v.toNat / 10 / 10 % 10, v.toNat / 10 % 10, v.toNat % 10,
    ?_, ?_, ?_, ?_, ?_, ?_, rfl⟩ <;> omega

/-- Settles O50: the ECHO of each record, the sending of TEST ITEMs, the generator, the test identifier. -/
theorem echoesAndTestItems : Obligations.EchoesAndTestItems := by
  refine ⟨fun s l r active echo valid => ?echo, fun s l h => ?stays,
    fun s l t test active ht room => ?sends, toNat_generatorStep, fun v => ?identifier⟩
  case echo =>
    cases r with
    | heartbeat b d => exact happens_echo active echo valid (noteBelt_setLane s l _ b d)
    | itemBegin | observation | itemEnd | atGate | confirm => exact happens_echo active echo valid rfl
  case stays =>
    obtain mode | state | full := h
    · exact feedTest_eq mode
    · exact feedTest_inactive state
    · exact feedTest_full full
  case sends =>
    subst ht
    exact feedTest_room test active room
  case identifier =>
    obtain ⟨a, b, c, d, e, ha, hb, hc, hd, he, value, digits⟩ := exists_testDigits v
    refine ⟨a, b, c, d, e, ha, hb, hc, hd, he, value, ?_, ?_⟩
    · rw [testCheck, digits, altCheck_test]
    · rw [testIdentifier_eq, digits]
      rfl

end Sys2Proof.Machine
end

section
/-! The send point, the hold timer and the batch in transmission (R184 to R187): what the operations of the report unit and of the line keep
of them. -/

namespace Sys2Proof.Machine

/-! The report unit. -/

/-- R186, R187: the send point marks a filled record, the hold timer runs exactly while records wait, and the first n records are due. -/
abbrev ReportUnit.marks (r : ReportUnit) (n : Nat) : Prop :=
  (∀ i ∈ r.sendPoint, i < r.filled.length) ∧ r.holdTimer.isSome = decide (r.due < r.filled.length) ∧ n ≤ r.due
theorem sendWf_iff (s : State) : s.sendWf ↔ s.report.marks s.host.line.queued := Iff.rfl

/-- R186: no more records are due than stand filled. -/
theorem due_le_filled {r : ReportUnit} (marked : ∀ i ∈ r.sendPoint, i < r.filled.length) : r.due ≤ r.filled.length := by
  unfold ReportUnit.due
  split
  · next i point => exact marked i point
  · exact Nat.zero_le _
/-- R186: with everything due no record waits. -/
theorem marks_all {r : ReportUnit} (point : r.due = r.filled.length) (timer : r.holdTimer = none)
    (marked : ∀ i ∈ r.sendPoint, i < r.filled.length) {n : Nat} (sent : n ≤ r.filled.length) : r.marks n :=
  ⟨marked, by simp [timer, point], point ▸ sent⟩
theorem marks_sendAll {r : ReportUnit} {n : Nat} (h : r.marks n) : r.sendAll.marks n := by
  have ⟨marked, _, sent⟩ := h
  unfold ReportUnit.sendAll
  split
  · exact h
  · next m length =>
    exact marks_all (r := { r with sendPoint := some m, holdTimer := none }) length.symm rfl (by simp [length])
      (sent.trans (due_le_filled marked))
theorem marks_sendWith {r : ReportUnit} {n : Nat} (h : r.marks n) (x : ReportRecord) : (r.sendWith x).marks n := by
  obtain ⟨marked, -, sent⟩ := h
  have filled := sent.trans (due_le_filled marked)
  exact marks_all (by simp [ReportUnit.sendWith, ReportUnit.due]) rfl (by simp [ReportUnit.sendWith])
    (by simp only [ReportUnit.sendWith, List.length_append]; omega)
/-- R186: a record that is not due waits, and the hold timer runs. -/
theorem marks_fill {r : ReportUnit} {n : Nat} (h : r.marks n) (x : ReportRecord) : (r.fill x).marks n := by
  rw [fill_eq]
  split
  · exact marks_sendWith h x
  · obtain ⟨marked, -, sent⟩ := h
    have waits : r.due < (r.filled ++ [x]).length := by
      rw [List.length_append]
      exact Nat.lt_succ_of_le (due_le_filled marked)
    refine ⟨fun i point => ?_, (decide_eq_true waits).symm, sent⟩
    rw [List.length_append]
    exact Nat.lt_add_right 1 (marked i point)
/-- R187: when a batch has left, as many fewer records are due. -/
theorem due_leave {r : ReportUnit} (n : Nat) : (r.leave n).due = r.due - n := by
  cases point : r.sendPoint with
  | none => simp [ReportUnit.due, ReportUnit.leave, point]
  | some i =>
    by_cases left : i < n
    · simp [ReportUnit.due, ReportUnit.leave, point, left]
    · simp only [ReportUnit.due, ReportUnit.leave, point, if_neg left]
      omega
/-- R186, R187: the send point goes with the record it marks, and the records that wait are the same. -/
theorem marks_leave {r : ReportUnit} {n : Nat} (h : r.marks n) : (r.leave n).marks 0 := by
  obtain ⟨marked, timer, sent⟩ := h
  have filled := due_le_filled marked
  have length : (r.leave n).filled.length = r.filled.length - n := List.length_drop
  refine ⟨fun i point => ?_, ?_, Nat.zero_le _⟩
  · have due : (r.leave n).due = i + 1 := by rw [ReportUnit.due, point]
    rw [due_leave] at due
    omega
  · rw [due_leave, length]
    refine timer.trans (decide_eq_decide.mpr ?_)
    omega

/-! Notices, filings and the settling. -/

theorem sendWf_ite {t u : State} (c : Prop) [Decidable c] (ht : t.sendWf) (hu : u.sendWf) : (if c then t else u).sendWf := by
  split
  · exact ht
  · exact hu
theorem sendWf_ask {s : State} (h : s.sendWf) (a : Source) (c : NoticeCondition) (e : Edge) (d : Detail) : (s.ask a c e d).sendWf := by
  by_cases room : s.report.usedNonItem < 16
  · rw [ask_of_room room]
    exact marks_sendWith h _
  · rw [ask_of_full (not_lt.mp room)]
    exact h
theorem sendWf_laneNotice {s : State} (h : s.sendWf) (l : LaneId) (c : NoticeCondition) (e : Edge) (d : Detail) :
    (s.laneNotice l c e d).sendWf := sendWf_ite _ (sendWf_ask h _ c e d) h
theorem sendWf_deviceNotice {s : State} (h : s.sendWf) (c : NoticeCondition) (e : Edge) (d : Detail) : (s.deviceNotice c e d).sendWf :=
  sendWf_ite _ (sendWf_ask h _ c e d) h
theorem sendWf_levelNotice {s : State} (h : s.sendWf) (l : LaneId) (v : LaneLevel) : (s.levelNotice l v).sendWf :=
  sendWf_ite _ h (sendWf_laneNotice h l _ _ _)
theorem sendWf_file {s : State} (h : s.sendWf) (f : Filing) : (s.file f).sendWf := by
  cases f with
  | reserve => exact h
  | item x => exact marks_fill (r := { s.report with reservedItem := s.report.reservedItem - 1 }) h x
  | completion c => exact marks_fill (r := { s.report with reservedNonItem := s.report.reservedNonItem - 1 }) h (.completion c)
  | lane l c e d => exact sendWf_laneNotice h l c e d
  | device c e d => exact sendWf_deviceNotice h c e d
theorem sendWf_files {s : State} (h : s.sendWf) (fs : List Filing) : (s.files fs).sendWf :=
  foldl_keeps (P := State.sendWf) (fun _ f kept => sendWf_file kept f) fs s h
theorem sendWf_settleReport {s : State} (h : s.sendWf) : s.settleReport.sendWf := by
  have spaced (no low : Bool) : (s.withSpace no low).sendWf := h
  rw [settleReport_eq (no := decide (s.report.unreserved = 0)) (low := decide (s.report.unreserved < Config.lowSpace)) decide_eq_true_iff
    decide_eq_true_iff]
  exact sendWf_ite _ (spaced _ _) (sendWf_deviceNotice (sendWf_ite _ (marks_sendAll (spaced _ _)) (spaced _ _)) _ _ _)

/-! The line. -/

/-- R184, R187: the line is granted to a reply, or to a batch of records that are due. -/
theorem sendWf_grant {s : State} (h : s.sendWf) : s.grant.sendWf := by
  have ⟨marked, timer, _⟩ := h
  by_cases free : s.host.line = .idle
  · cases waiting : s.host.replies with
    | cons r rest =>
      rw [grant_reply free waiting]
      exact ⟨marked, timer, Nat.zero_le _⟩
    | nil =>
      obtain ⟨n, takes, -, due, -⟩ := batch_spec s.report
      rw [grant_noReply free waiting]
      refine sendWf_ite _ ⟨marked, timer, ?_⟩ h
      exact (congrArg List.length takes).trans_le ((List.length_take_le n _).trans due)
  · rw [grant_busy free]
    exact h
/-- R184: a line that the arbiter leaves free has nothing to send. -/
theorem lineWf_grant (s : State) : s.grant.lineWf := by
  by_cases free : s.host.line = .idle
  · cases waiting : s.host.replies with
    | cons r rest =>
      rw [grant_reply free waiting]
      exact nofun
    | nil =>
      rw [grant_noReply free waiting]
      split
      · exact nofun
      · next idle => exact fun _ => ⟨waiting, by simpa [or_iff_not_imp_left] using idle⟩
  · rw [grant_busy free]
    exact fun idle => absurd idle free

end Sys2Proof.Machine
end

section
/-! What the blocks beside the lanes keep of the sending (R20, R32, R121, R131, R156, R161, R186). -/

namespace Sys2Proof.Machine

/-! The Title Table, the claim list and the arrivals. -/

theorem sendWf_withClaims {s : State} (h : s.sendWf) (c : ClaimList) : (s.withClaims c).sendWf :=
  sendWf_ite _ h (sendWf_deviceNotice (s := { s with claims := c }) h _ _ _)
theorem sendWf_withTable {s : State} (h : s.sendWf) (t : TitleTable) : (s.withTable t).sendWf :=
  sendWf_ite _ h (sendWf_deviceNotice (s := { s with table := t }) h _ _ _)
theorem sendWf_markTaken {s : State} (h : s.sendWf) (e : ClaimEntry) : (s.markTaken e).sendWf := by
  unfold State.markTaken
  split
  · split <;> exact h
  · exact h
theorem sendWf_satisfyMonograph {s : State} (h : s.sendWf) (k : Key) (c : ClaimState) : (s.satisfyMonograph k c).1.sendWf := by
  cases c with
  | listed => exact sendWf_withClaims h _
  | taken | owed | none => exact h
/-- R45 to R54: an arrival only asks the claim list. -/
theorem sendWf_asksRun {a b : ArrivalStep} {k : Key} {q : Nat} (h : a.state.sendWf) (asks : a.asksRun k q b) : b.state.sendWf := by
  obtain ⟨rs, state, -⟩ := asks
  rw [state]
  exact foldl_keeps (P := State.sendWf) (fun _ _ kept => sendWf_withClaims kept _) rs _ h
theorem sendWf_commitMonograph {s : State} (h : s.sendWf) (n : Nat) (r : TitleRecord) (m : MonographPart) :
    (s.commitMonograph n r m).1.sendWf := by
  unfold State.commitMonograph
  dsimp only
  split
  · exact sendWf_satisfyMonograph h r.key m.claim
  · exact h
theorem sendWf_commitSerial {s : State} (h : s.sendWf) (slot : Nat) (r : TitleRecord) (p : SerialPart) (n span : Nat) :
    (s.commitSerial slot r p n span).1.sendWf :=
  sendWf_asksRun (a := ⟨s, p, .none⟩) h (commit_asksRun _ r.key r.q n span)
theorem sendWf_commitIf {s : State} {commit : State × Indications} (h : s.sendWf) (normal available : Bool) (a : Answer)
    (commits : commit.1.sendWf) : (s.commitIf normal available a commit).1.sendWf := by
  unfold State.commitIf
  split
  · exact commits
  · exact h
theorem sendWf_serialArrival {s : State} (h : s.sendWf) (slot : Nat) (r : TitleRecord) (p : SerialPart) (e : Option Enumeration)
    (normal available : Bool) : (s.serialArrival slot r p e normal available).1.sendWf := by
  unfold State.serialArrival
  split
  · exact h
  · dsimp only
    split
    · exact h
    · exact sendWf_commitIf h _ _ _ (sendWf_commitSerial h slot r p _ _)
theorem sendWf_arrival {s : State} (h : s.sendWf) (k : Key) (e : Option Enumeration) (normal available : Bool) :
    (s.arrival k e normal available).1.sendWf := by
  unfold State.arrival
  split
  · exact h
  · split
    · exact h
    · split
      · exact sendWf_commitIf h _ _ _ (sendWf_commitMonograph h _ _ _)
      · exact sendWf_serialArrival h _ _ _ _ _ _

/-! Decisions and consignments. -/

theorem sendWf_decideKey {s : State} (h : s.sendWf) (k : Key) (e : Option Enumeration) (normal : Bool) :
    (s.decideKey k e normal).1.sendWf := by
  unfold State.decideKey
  generalize (if normal = true then s.decision.available else true) = available
  dsimp only
  split <;> exact sendWf_arrival h k e normal available
theorem sendWf_identify {s : State} (h : s.sendWf) (l : LaneId) (is : List Ident) : (s.identify l is).1.sendWf := by
  unfold State.identify
  split
  · exact h
  · exact h
  · exact sendWf_decideKey h _ _ _
theorem sendWf_closeConsignment {s : State} (h : s.sendWf) (l : LaneId) (c : CloseCause) : (s.closeConsignment l c).sendWf := by
  rw [closeConsignment_eq]
  exact sendWf_files (s := s.setConsignment l none) h _
theorem sendWf_countMember {s : State} (h : s.sendWf) (l : LaneId) (number : Option Nat) (normal : Bool) (r : Reason) :
    (s.countMember l number normal r).sendWf := by
  unfold State.countMember
  split
  · exact h
  · split <;> exact h
theorem sendWf_openConsignment {s : State} (h : s.sendWf) (l : LaneId) (c : SlipContent) : (s.openConsignment l c).1.sendWf := by
  unfold State.openConsignment
  split <;> exact h
theorem sendWf_slipAction {s : State} (h : s.sendWf) (l : LaneId) (r : Reason) (c : SlipContent) : (s.slipAction l r c).1.sendWf := by
  unfold State.slipAction
  split
  · exact sendWf_openConsignment (sendWf_closeConsignment h l _) l c
  · split
    · exact h
    · exact sendWf_closeConsignment h l _
  · exact h
theorem sendWf_informConsignment {s : State} (h : s.sendWf) (l : LaneId) (number : Option Nat) (d : Draft) :
    (s.informConsignment l number d).1.sendWf := by
  have counted := sendWf_countMember h l number (decide ((s.lane l).mode = .normal)) d.answer.reason
  unfold State.informConsignment
  dsimp only
  split
  · exact sendWf_slipAction counted l _ _
  · exact counted
theorem sendWf_exhaustion {s : State} (h : s.sendWf) (l : LaneId) (sq : Seq) : (s.exhaustion l sq).sendWf :=
  sendWf_ite _ h (sendWf_deviceNotice (s := { s with decision := { s.decision with exhaustNotice := true } }) h _ _ _)

/-! The table engine. -/

theorem sendWf_complete {s : State} (h : s.sendWf) (e : EngineContext) (t : Termination) (next : Nat) (hit : Option Hit) :
    (s.complete e t next hit).sendWf := sendWf_file (s := { s with engine := none }) h (.completion _)
theorem sendWf_goOn {s : State} (h : s.sendWf) (e : EngineContext) : (s.goOn e).sendWf := sendWf_ite _ (sendWf_complete h e _ _ _) h
theorem sendWf_accept {s : State} (h : s.sendWf) (op : Operation) (start : Nat) : (s.accept op start).1.sendWf := by
  unfold State.accept
  split
  · exact h
  · split
    · exact h
    · split
      · exact h
      · exact sendWf_goOn (s := s.onReport fun r => { r with reservedNonItem := r.reservedNonItem + 1 }) h _
theorem sendWf_endEngine {s : State} (h : s.sendWf) : s.endEngine.sendWf := by
  unfold State.endEngine
  split
  · exact h
  · exact sendWf_complete h _ _ _ _
theorem sendWf_runAbort {s : State} (h : s.sendWf) : s.runAbort.1.sendWf := by
  unfold State.runAbort
  split
  · exact h
  · exact sendWf_complete h _ _ _ _
theorem sendWf_examineFind {s : State} (h : s.sendWf) (e : EngineContext) (f : FindFields) : (s.examineFind e f).sendWf := by
  unfold State.examineFind
  split
  · exact sendWf_goOn h _
  · exact sendWf_ite _ (sendWf_complete h _ _ _ _) (sendWf_goOn h _)
theorem sendWf_sweepSerial {s : State} (h : s.sendWf) (e : EngineContext) (r : TitleRecord) (p : SerialPart) :
    (s.sweepSerial e r p).1.sendWf :=
  foldl_keeps (P := fun a : ArrivalStep × EngineContext => a.1.state.sendWf) (fun _ _ kept => sendWf_withClaims kept _) _
    (⟨s, p, .none⟩, e) h
theorem sendWf_examineSweep {s : State} (h : s.sendWf) (e : EngineContext) : (s.examineSweep e).sendWf := by
  unfold State.examineSweep
  split
  · exact sendWf_goOn h _
  · refine sendWf_goOn ?_ _
    split
    · split
      · exact sendWf_withClaims h _
      · exact h
    · split
      · exact sendWf_sweepSerial h e _ _
      · exact h
theorem sendWf_examinePurge {s : State} (h : s.sendWf) (e : EngineContext) : (s.examinePurge e).sendWf := by
  unfold State.examinePurge
  split
  · exact sendWf_goOn h _
  · exact sendWf_ite _ (sendWf_goOn (sendWf_withTable h _) _) (sendWf_goOn h _)

/-! Commands of the Title Table and the claim list. -/

theorem sendWf_withKey {s : State} (h : s.sendWf) (k : KeyText) {act : Key → State × ReplyBody} (acts : ∀ v, (act v).1.sendWf) :
    (s.withKey k act).1.sendWf := by
  unfold State.withKey
  split
  · exact acts _
  · exact h
theorem sendWf_runAnnounceTitle {s : State} (h : s.sendWf) (f : AnnounceFields) : (s.runAnnounceTitle f).1.sendWf := by
  refine sendWf_withKey h _ fun k => ?_
  dsimp only
  split
  · exact h
  · split
    · exact sendWf_withClaims (s := s.putRecord _ _) h _
    · split
      · exact sendWf_withTable h _
      · exact h
theorem sendWf_settleAmended {s : State} (h : s.sendWf) (n : Nat) (r : TitleRecord) : (s.settleAmended n r).1.sendWf := by
  unfold State.settleAmended
  split
  · split
    · split
      · exact sendWf_satisfyMonograph h _ _
      · exact h
    · exact h
  · exact h
theorem sendWf_runAmendTitle {s : State} (h : s.sendWf) (f : AmendFields) : (s.runAmendTitle f).1.sendWf := by
  refine sendWf_withKey h _ fun k => ?_
  split
  · exact h
  · split
    · exact h
    · split
      · exact h
      · split
        · exact h
        · exact sendWf_settleAmended h _ _
theorem sendWf_runWithdrawTitle {s : State} (h : s.sendWf) (k : KeyText) : (s.runWithdrawTitle k).1.sendWf := by
  refine sendWf_withKey h _ fun k => ?_
  split
  · exact h
  · split
    · exact h
    · exact sendWf_withClaims (s := s.putRecord _ _) h _
theorem sendWf_runReadTitle {s : State} (h : s.sendWf) (k : KeyText) : (s.runReadTitle k).1.sendWf := by
  refine sendWf_withKey h _ fun k => ?_
  split <;> exact h
theorem sendWf_runListTitles {s : State} (h : s.sendWf) (f : ListFields) : (s.runListTitles f).1.sendWf := by
  unfold State.runListTitles
  split <;> exact h
theorem sendWf_runSetRun {s : State} (h : s.sendWf) (f : SetRunFields) : (s.runSetRun f).1.sendWf := by
  refine sendWf_withKey h _ fun k => ?_
  split
  · exact h
  · split
    · exact h
    · split
      · exact h
      · split <;> exact h
theorem sendWf_runTakeClaims {s : State} (h : s.sendWf) (n : Half) : (s.runTakeClaims n).1.sendWf := by
  unfold State.runTakeClaims
  split
  · exact h
  · exact sendWf_withClaims (foldl_keeps (P := State.sendWf) (fun _ e kept => sendWf_markTaken kept e) _ s h) _

end Sys2Proof.Machine
end

section
/-! What the lanes keep of the sending: their notices, the records of their items, and their commands (R66 to R69, R78, R86 to R104). -/

namespace Sys2Proof.Machine

/-! Lanes, their hold flags and their windows. -/

theorem sendWf_reevaluate {s : State} (h : s.sendWf) (l : LaneId) : (s.reevaluate l).sendWf := by
  unfold State.reevaluate
  dsimp only
  split
  · exact h
  · exact sendWf_laneNotice (s := s.onLane l _) h l _ _ _
theorem sendWf_endItem {s : State} (h : s.sendWf) (l : LaneId) (i : Item) (o : ItemOutcome) (x : Fin 8) (r : Reason) (c : ConfirmResult)
    (f : Bool) : (s.endItem l i o x r c f).sendWf := by
  rw [endItem_eq]
  exact sendWf_files h _
theorem sendWf_closeWindow {s : State} (h : s.sendWf) (l : LaneId) (r : ConfirmResult) : (s.closeWindow l r).sendWf := by
  rw [closeWindow_eq]
  exact sendWf_files (s := s.setLane l _) h _
theorem sendWf_violate {s : State} (h : s.sendWf) (l : LaneId) (c : ViolationCause) (t : RecordType) (q : Seq) :
    (s.violate l c t q).sendWf := by
  rw [violate_eq, State.stoppedBy]
  exact sendWf_files (s := (s.setConsignment l none).setLane l _) h _
theorem sendWf_disableLane {s : State} (h : s.sendWf) (l : LaneId) (r : Reason) : (s.disableLane l r).sendWf := by
  rw [disableLane_eq]
  exact sendWf_files (s := (s.setConsignment l none).setLane l _) h _
theorem sendWf_clearFault {s : State} (h : s.sendWf) (l : LaneId) : (s.clearFault l).sendWf :=
  sendWf_ite _ (sendWf_laneNotice (s := s.onLane l _) h l _ _ _) h
theorem sendWf_restartLane {s : State} (h : s.sendWf) (l : LaneId) : (s.restartLane l).sendWf := by
  have disabled : (if (s.lane l).state = .disabled then s else s.disableLane l .restarted).sendWf :=
    sendWf_ite _ h (sendWf_disableLane h l _)
  exact sendWf_clearFault (s := (State.onLane _ l Lane.restarted).clearStray l) disabled l
/-- R191: RESTART files the records of its lanes and of the engine. -/
theorem sendWf_runRestart {s : State} (h : s.sendWf) : s.runRestart.1.sendWf := by
  have restarted := foldl_keeps (P := State.sendWf) (fun _ l kept => sendWf_restartLane kept l) allLanes s h
  unfold State.runRestart
  generalize allLanes.foldl State.restartLane s = u at *
  exact sendWf_ask (sendWf_endEngine restarted) _ _ _ _

/-! Admissions, readings and decisions. -/

theorem sendWf_misdirected {s : State} (h : s.sendWf) (l : LaneId) (t : RecordType) (sq : Seq) : (s.misdirected l t sq).sendWf :=
  sendWf_ite _ h (sendWf_violate h l _ _ _)
theorem sendWf_admitItem {s : State} (h : s.sendWf) (l : LaneId) (sq : Seq) : (s.admitItem l sq).sendWf := by
  have reserved : (s.reserveAdmission l).1.sendWf := by
    unfold State.reserveAdmission State.joinConsignment
    split
    · split <;> exact h
    · exact h
  unfold State.admitItem
  dsimp only
  generalize s.reserveAdmission l = out at *
  have levels (f : Lane → Lane) (r : LaneOut) := sendWf_levelNotice (s := (out.1.onLane l f).send l r) reserved l (s.lane l).level
  exact sendWf_reevaluate (sendWf_ite _ (sendWf_settleReport (levels _ _)) (levels _ _)) l
theorem sendWf_beginItem {s : State} (h : s.sendWf) (l : LaneId) (sq : Seq) : (s.beginItem l sq).sendWf :=
  sendWf_ite _ (sendWf_violate h l _ _ _) (sendWf_ite _ (sendWf_violate h l _ _ _) (sendWf_ite _ h (sendWf_admitItem h l sq)))
theorem sendWf_raiseDecision {s : State} (h : s.sendWf) (l : LaneId) (sq : Seq) (n : Nat) (d : Draft) (a : SlipAction) :
    (s.raiseDecision l sq n d a).sendWf := by
  unfold State.raiseDecision
  split
  · exact sendWf_laneNotice h l _ _ _
  · split
    · exact sendWf_laneNotice (s := s.onCounters l _) h l _ _ _
    · exact sendWf_exhaustion h l sq
    · exact h
/-- R108: a decision, and the report space settled behind it. -/
theorem sendWf_decideItem {s : State} (h : s.sendWf) (l : LaneId) (i : Item) : (s.decideItem l i).sendWf := by
  have told := sendWf_informConsignment (sendWf_identify h l (identsOf (i.observations.map HeldObservation.judged))) l i.consignment
    (s.identify l (identsOf (i.observations.map HeldObservation.judged))).2
  exact sendWf_settleReport (sendWf_raiseDecision (s := State.onLane _ l _) told l _ _ _ _)
theorem sendWf_testItemEnd {s : State} (h : s.sendWf) (l : LaneId) (i : Item) : (s.testItemEnd l i).sendWf :=
  sendWf_ite _ h (sendWf_laneNotice (s := s.onLane l _) h l _ _ _)
theorem sendWf_endReading {s : State} (h : s.sendWf) (l : LaneId) (o : Option Observation) : (s.endReading l o).sendWf := by
  have decided (u : State) (kept : u.sendWf) : State.sendWf (match (u.lane l).readingItem with
      | some i => if (u.lane l).mode = .test then u.testItemEnd l i else u.decideItem l i
      | none => u) := by
    split
    · exact sendWf_ite _ (sendWf_testItemEnd kept l _) (sendWf_decideItem kept l _)
    · exact kept
  cases o with
  | none => exact decided s h
  | some o => exact decided (s.joinReading l o) h
theorem sendWf_endItemReading {s : State} (h : s.sendWf) (l : LaneId) (sq : Seq) (o : Option Observation) :
    (s.endItemReading l sq o).sendWf := sendWf_ite _ (sendWf_endReading h l o) (sendWf_misdirected h l _ _)

/-! The gate. -/

theorem sendWf_pairHead {s : State} (h : s.sendWf) (l : LaneId) (i : Item) : (s.pairHead l i).sendWf := by
  have runsOut (u : State) (kept : u.sendWf) (r : Reason) (f : Bool) : ((u.sendRunOut l i.sq).endItem l i .runOut
      (s.lane l).config.outlets.runout r .unconfirmed f).sendWf := sendWf_endItem (s := u.sendRunOut l i.sq) kept l _ _ _ _ _ _
  exact sendWf_ite _ (runsOut (s.onCounters l _) h _ _) (sendWf_ite _ (runsOut s h _ _) (sendWf_ite _ h h))
theorem sendWf_pairGate {s : State} (h : s.sendWf) (l : LaneId) (sq : Seq) : (s.pairGate l sq).sendWf := by
  unfold State.pairGate
  dsimp only
  generalize (s.lane l).queue.dropWhile _ = rest
  refine sendWf_reevaluate (sendWf_levelNotice ?_ l _) l
  have missed := foldl_keeps (P := State.sendWf) (f := State.missItem l)
    (fun u i kept => sendWf_endItem (s := u.onCounters l _) kept l i _ _ _ _ _) ((s.lane l).queue.takeWhile fun i => i.sq != sq) _
    (sendWf_closeWindow h l .noConfirm)
  cases rest with
  | nil => exact missed
  | cons i t => exact sendWf_pairHead (s := State.onLane _ l _) missed l i
theorem sendWf_phantom {s : State} (h : s.sendWf) (l : LaneId) (sq : Seq) : (s.phantom l sq).sendWf :=
  sendWf_laneNotice (s := State.sendRunOut (State.onCounters _ l _) l sq) (sendWf_closeWindow h l .noConfirm) l _ _ _
theorem sendWf_gate {s : State} (h : s.sendWf) (l : LaneId) (sq : Seq) : (s.gate l sq).sendWf :=
  sendWf_ite _ (sendWf_pairGate h l sq) (sendWf_ite _ h (sendWf_ite _ (sendWf_phantom h l sq) (sendWf_violate h l _ _ _)))
theorem sendWf_confirmItem {s : State} (h : s.sendWf) (l : LaneId) (sq : Seq) (x : Byte) : (s.confirmItem l sq x).sendWf := by
  unfold State.confirmItem
  split
  · exact h
  · exact sendWf_ite _ (sendWf_closeWindow h l _) h

/-! Station records, and events of a lane. -/

theorem sendWf_enterActive {s : State} (h : s.sendWf) (l : LaneId) : (s.enterActive l).sendWf :=
  sendWf_reevaluate (sendWf_laneNotice (s := s.onLane l _) h l _ _ _) l
theorem sendWf_takeRecord {s : State} (h : s.sendWf) (l : LaneId) (r : StationRecord) {act : State → State}
    (acts : ∀ u : State, u.sendWf → (act u).sendWf) : (s.takeRecord l r act).sendWf := by
  refine sendWf_ite _ ?_ (acts s h)
  cases r <;> exact h
/-- R66 to R69: what a lane makes of a station record. -/
theorem sendWf_receive {s : State} (h : s.sendWf) (l : LaneId) (r : StationRecord) {act : State → State}
    (acts : ∀ u : State, u.sendWf → (act u).sendWf) : (s.receive l r act).sendWf := by
  unfold State.receive
  split
  · exact h
  · refine sendWf_ite _ h ?_
    cases r <;> exact h
  · exact sendWf_ite _ h (sendWf_takeRecord (s := s.restartSilence l) h l r acts)
  · exact sendWf_ite _ h (sendWf_ite _ (sendWf_takeRecord (sendWf_enterActive h l) l r acts) (sendWf_ite _ h h))
theorem sendWf_silenceExpired {s : State} (h : s.sendWf) (l : LaneId) : (s.silenceExpired l).sendWf := by
  unfold State.silenceExpired
  split
  · exact sendWf_reevaluate (sendWf_laneNotice (s := State.restartSilence (s.onLane l _) l) h l _ _ _) l
  · exact h
  · exact h
theorem sendWf_takeNews {s : State} (h : s.sendWf) (l : LaneId) : (s.takeNews l).sendWf := by
  unfold State.takeNews
  split
  · exact h
  · exact sendWf_reevaluate (s := s.onLane l _) h l

/-! Commands of the lanes. -/

theorem sendWf_withLane {s : State} (h : s.sendWf) (b : Byte) {act : LaneId → State × ReplyBody} (acts : ∀ l, (act l).1.sendWf) :
    (s.withLane b act).1.sendWf := by
  unfold State.withLane
  split
  · exact acts _
  · exact h
theorem sendWf_runConfigureLane {s : State} (h : s.sendWf) (f : ConfigureFields) : (s.runConfigureLane f).1.sendWf := by
  refine sendWf_withLane h _ fun l => ?_
  dsimp only
  split
  · exact h
  · split <;> exact h
theorem sendWf_runEnableLane {s : State} (h : s.sendWf) (b : Byte) : (s.runEnableLane b).1.sendWf := by
  refine sendWf_withLane h _ fun l => ?_
  dsimp only
  split
  · exact h
  · split
    · exact h
    · exact sendWf_laneNotice (s := s.onLane l _) h l _ _ _
theorem sendWf_runDisableLane {s : State} (h : s.sendWf) (b : Byte) : (s.runDisableLane b).1.sendWf := by
  refine sendWf_withLane h _ fun l => ?_
  dsimp only
  split
  · exact h
  · exact sendWf_disableLane h l _
theorem sendWf_runSetLaneMode {s : State} (h : s.sendWf) (f : LaneModeFields) : (s.runSetLaneMode f).1.sendWf := by
  refine sendWf_withLane h _ fun l => ?_
  split <;> exact h
theorem sendWf_runInjectError {s : State} (h : s.sendWf) (b : Byte) : (s.runInjectError b).1.sendWf := by
  refine sendWf_withLane h _ fun l => ?_
  split <;> exact h
theorem sendWf_runCloseConsignment {s : State} (h : s.sendWf) (b : Byte) : (s.runCloseConsignment b).1.sendWf := by
  refine sendWf_withLane h _ fun l => ?_
  split
  · exact h
  · exact sendWf_closeConsignment h l _

end Sys2Proof.Machine
end

section
/-! Every step keeps the sending (R184, R186, R187), and grants the line when it leaves it free. -/

namespace Sys2Proof.Machine

/-- A command, if it answers a next state, keeps the sending and the granted line. -/
def State.sendsOn (s : State) (r : Result) : Prop := ∀ t, r = .next t → (s.sendWf → t.sendWf) ∧ (s.lineWf → t.lineWf)

theorem sendsOn_done {s t : State} (h : s.sendWf → t.sendWf) : s.sendsOn t.done := by
  rintro u ⟨⟩
  exact ⟨fun kept => sendWf_grant (h kept), fun _ => lineWf_grant t⟩
/-- R182: a frame dropped leaves the line as it is; a frame taken ends with the line granted. -/
theorem sendsOn_takeFrame {s : State} {run : State → State × ReplyBody} (code tag : Byte) (h : ∀ u : State, u.sendWf → (run u).1.sendWf) :
    s.sendsOn (s.takeFrame code tag run) := by
  by_cases full : 8 ≤ s.host.replies.length
  · rw [takeFrame_full full]
    rintro u ⟨⟩
    exact ⟨id, id⟩
  · have taken : s.takeFrame code tag run = (((run (s.onLink .countFrame)).1.reply code tag (run (s.onLink .countFrame)).2)).done :=
      if_neg full
    rw [taken]
    exact sendsOn_done (h (s.onLink .countFrame))
theorem sendsOn_command {α : Type} {s : State} {run : α → State → State × ReplyBody} (code tag : Byte) (body : Body α)
    (h : ∀ a (u : State), u.sendWf → (run a u).1.sendWf) : s.sendsOn (s.command code tag body run) := by
  refine sendsOn_takeFrame code tag fun u kept => ?_
  cases body with
  | malformed => exact kept
  | fields a => exact h a u kept
theorem sendsOn_receive {s : State} {act : State → State} (l : LaneId) (r : StationRecord) (acts : ∀ u : State, u.sendWf → (act u).sendWf) :
    s.sendsOn (s.receive l r act).done := sendsOn_done fun h => sendWf_receive h l r acts

/-- R192: nothing is filled, due or waiting at power-on, nor after CLEAR. -/
theorem sendWf_of_reset {t : State} (report : t.report = .reset) (line : t.host.line.queued = 0) : t.sendWf := by
  rw [sendWf_iff, report, line]
  exact ⟨nofun, rfl, Nat.zero_le _⟩
theorem sendWf_cleared (s : State) : s.cleared.sendWf := by
  refine sendWf_of_reset rfl ?_
  unfold State.cleared
  dsimp only
  cases s.host.line <;> rfl
/-- R187: the end of a batch: its records leave, and the report space is settled. -/
theorem sendsOn_batchSent (s : State) : s.sendsOn (exec .batchSent s) := by
  cases line : s.host.line with
  | batch tag rs n =>
    rw [execBatchSent_batch line]
    refine sendsOn_done fun h => sendWf_settleReport ?_
    rw [sendWf_iff, line] at h
    exact marks_leave h
  | idle | reply =>
    rw [execBatchSent_none (by simp [line])]
    exact sendsOn_done id
theorem sendsOn_replySent (s : State) : s.sendsOn (exec .replySent s) := by
  cases line : s.host.line with
  | reply r =>
    rw [execReplySent_reply line]
    refine sendsOn_done fun h => ?_
    obtain ⟨marked, timer, -⟩ := h
    exact ⟨marked, timer, Nat.zero_le _⟩
  | idle | batch =>
    rw [execReplySent_none (by simp [line])]
    exact sendsOn_done id

/-- Every one of the 60 commands keeps the sending and the granted line. -/
theorem exec_sendsOn (c : Instr) (s : State) : s.sendsOn (exec c s) := by
  cases c with
  | powerOn =>
    have reset : s.poweredOn.sendWf := sendWf_of_reset rfl rfl
    exact sendsOn_done fun _ => sendWf_ask reset _ _ _ _
  | clear =>
    simp only [exec, execClear]
    exact sendsOn_command _ _ _ fun _ u _ => sendWf_ask (sendWf_cleared u) _ _ _ _
  | restart => exact sendsOn_command _ _ _ fun _ _ h => sendWf_runRestart h
  | hostLengthError | hostCrcError => exact sendsOn_done id
  | commandDropped =>
    simp only [exec, execCommandDropped]
    split <;> exact sendsOn_done id
  | unknownCommand code tag =>
    simp only [exec, execUnknownCommand]
    split
    · exact sendsOn_done id
    · exact sendsOn_takeFrame code tag fun _ h => h
  | replySent => exact sendsOn_replySent s
  | batchSent => exact sendsOn_batchSent s
  | holdTimerExpiry =>
    simp only [exec, execHoldTimerExpiry]
    split
    · exact sendsOn_done marks_sendAll
    · exact sendsOn_done id
  | identify | readCounters | setReportHold | holdReports | releaseReports | setDay | setGrace | readAccession | readClaimStatus
  | engineStatus =>
    simp only [exec, execIdentify, execReadCounters, execSetReportHold, execHoldReports, execReleaseReports, execSetDay, execSetGrace,
      execReadAccession, execReadClaimStatus, execEngineStatus]
    exact sendsOn_command _ _ _ fun _ _ h => h
  | flushReports => exact sendsOn_command _ _ _ fun _ _ h => marks_sendAll h
  | setNotices =>
    simp only [exec, execSetNotices]
    refine sendsOn_command _ _ _ fun ps u h => ?_
    unfold State.runSetNotices
    split <;> exact h
  | announceTitle => exact sendsOn_command _ _ _ fun f _ h => sendWf_runAnnounceTitle h f
  | amendTitle => exact sendsOn_command _ _ _ fun f _ h => sendWf_runAmendTitle h f
  | withdrawTitle => exact sendsOn_command _ _ _ fun k _ h => sendWf_runWithdrawTitle h k
  | readTitle => exact sendsOn_command _ _ _ fun k _ h => sendWf_runReadTitle h k
  | listTitles => exact sendsOn_command _ _ _ fun f _ h => sendWf_runListTitles h f
  | setRun => exact sendsOn_command _ _ _ fun f _ h => sendWf_runSetRun h f
  | takeClaims => exact sendsOn_command _ _ _ fun n _ h => sendWf_runTakeClaims h n
  | setAccessionBase =>
    simp only [exec, execSetAccessionBase]
    refine sendsOn_command _ _ _ fun b u h => ?_
    unfold State.runSetAccessionBase
    split
    · exact h
    · split <;> exact h
  | setSteering =>
    simp only [exec, execSetSteering]
    refine sendsOn_command _ _ _ fun f u h => ?_
    unfold State.runSetSteering
    split
    · exact h
    · split <;> exact h
  | readLane | readTest | readConsignment =>
    simp only [exec, execReadLane, execReadTest, execReadConsignment]
    exact sendsOn_command _ _ _ fun b _ h => sendWf_withLane h b fun _ => h
  | clearDiverterFault =>
    simp only [exec, execClearDiverterFault]
    exact sendsOn_command _ _ _ fun b _ h => sendWf_withLane h b fun l => sendWf_clearFault h l
  | closeConsignment => exact sendsOn_command _ _ _ fun b _ h => sendWf_runCloseConsignment h b
  | configureLane => exact sendsOn_command _ _ _ fun f _ h => sendWf_runConfigureLane h f
  | enableLane => exact sendsOn_command _ _ _ fun b _ h => sendWf_runEnableLane h b
  | disableLane => exact sendsOn_command _ _ _ fun b _ h => sendWf_runDisableLane h b
  | setLaneMode => exact sendsOn_command _ _ _ fun f _ h => sendWf_runSetLaneMode h f
  | injectError => exact sendsOn_command _ _ _ fun b _ h => sendWf_runInjectError h b
  | find =>
    simp only [exec, execFind]
    refine sendsOn_command _ _ _ fun f u h => ?_
    split
    · exact h
    · exact sendWf_accept h _ _
  | sweep | purge => exact sendsOn_command _ _ _ fun _ _ h => sendWf_accept h _ _
  | abort => exact sendsOn_command _ _ _ fun _ _ h => sendWf_runAbort h
  | findExamination =>
    simp only [exec, execFindExamination]
    split
    · split
      · exact sendsOn_done fun h => sendWf_examineFind h _ _
      · exact sendsOn_done id
      · exact sendsOn_done id
    · exact sendsOn_done id
  | sweepExamination =>
    simp only [exec, execSweepExamination]
    split
    · split
      · exact sendsOn_done fun h => sendWf_examineSweep h _
      · exact sendsOn_done id
      · exact sendsOn_done id
    · exact sendsOn_done id
  | purgeExamination =>
    simp only [exec, execPurgeExamination]
    split
    · split
      · exact sendsOn_done fun h => sendWf_examinePurge h _
      · exact sendsOn_done id
      · exact sendsOn_done id
    · exact sendsOn_done id
  | linkCheckFailure | recordNotWellFormed => exact sendsOn_done fun h => sendWf_ite _ h h
  | heartbeat l => exact sendsOn_receive l _ fun _ h => h
  | itemBegin l sq => exact sendsOn_receive l _ fun _ h => sendWf_beginItem h l sq
  | observation l sq o => exact sendsOn_receive l _ fun _ h => sendWf_ite _ h (sendWf_misdirected h l _ sq)
  | itemEnd l sq o => exact sendsOn_receive l _ fun _ h => sendWf_endItemReading h l sq o
  | atGate l sq => exact sendsOn_receive l _ fun _ h => sendWf_gate h l sq
  | confirm l sq x => exact sendsOn_receive l _ fun _ h => sendWf_confirmItem h l sq x
  | silenceTimerExpiry l => exact sendsOn_done fun h => sendWf_silenceExpired h l
  | confirmTimerExpiry l =>
    simp only [exec, execConfirmTimerExpiry]
    split
    · exact sendsOn_done id
    · exact sendsOn_done fun h => sendWf_closeWindow h l .noConfirm
  | noReportSpaceNews l => exact sendsOn_done fun h => sendWf_takeNews h l
  | laneRecordSent => exact sendsOn_done id

/-- A step runs one command, or none. -/
theorem step_sendsOn (s : State) : s.sendsOn (step s) := by
  unfold step
  split
  · rintro t ⟨⟩
    exact ⟨id, id⟩
  · next c rest _ => exact exec_sendsOn c { s with pending := rest }
/-- Settles O60: a step keeps the send point, the hold timer, the batch in transmission and the granted line. -/
theorem sendingIsKept : Obligations.SendingIsKept :=
  ⟨fun s t h next => (step_sendsOn s t next).1 h, fun s t h next => (step_sendsOn s t next).2 h⟩

end Sys2Proof.Machine
end

section
/-! The front of the queue, the errors of the host line, and the commands of the report unit (R181, R182, R186, R188, R189, R193). -/

namespace Sys2Proof.Machine

/-- Settles O1: a step reads the queue and nothing else. -/
theorem stepRunsTheFrontCommand : Obligations.StepRunsTheFrontCommand := by
  refine ⟨fun _ _ => rfl, fun s none => ?_⟩
  rw [step, none]

/-! Errors of the host line. -/

/-- R182: a frame whose code names no command is taken as a command is. -/
theorem exec_unknownCommand {code : Byte} (unknown : ¬ commandCodes.contains code.toNat = true) (tag : Byte) (s : State) :
    exec (.unknownCommand code tag) s = s.command code tag (.fields ()) fun _ s =>
      (s.onLink fun c => { c with unknownCodes := bump c.unknownCodes }, refuse .unknown) := if_neg unknown
/-- R181, R182: the command of a frame is taken with its body, whether its code names one or not. -/
theorem exec_of_frame {c : Instr} {code tag : Byte} (hf : Instr.frame c = some (code, tag)) :
    ∃ (α : Type) (body : Body α) (run : α → State → State × ReplyBody), ∀ s, exec c s = s.command code tag body run := by
  unfold Instr.frame at hf
  split at hf
  case h_1 c t =>
    obtain ⟨unknown, rfl, rfl⟩ : ¬ commandCodes.contains c.toNat = true ∧ c = code ∧ t = tag := by simpa using hf
    exact ⟨_, _, _, exec_unknownCommand unknown t⟩
  all_goals cases hf
  all_goals
    simp only [exec]
    exact ⟨_, _, _, fun _ => rfl⟩

/-- Settles O3: the two errors, the frames dropped, and the unknown code. -/
theorem hostLineErrorsAreCounted : Obligations.HostLineErrorsAreCounted := by
  refine ⟨fun _ => rfl, fun _ => rfl, fun s full => if_pos full, fun c code tag s hf full => ?frame, fun code tag s unknown hs => ?unknown⟩
  case frame =>
    obtain ⟨_, body, run, takes⟩ := exec_of_frame hf
    exact (takes s).trans (command_full full code tag body run)
  case unknown =>
    have none : ¬ commandCodes.contains code.toNat = true := by simpa using unknown
    exact takes_of_block (exec_unknownCommand none tag s) hs rfl

/-! The commands of the report unit. -/

theorem exec_holdReports (tag : Byte) (body : Body Unit) (s : State) : exec (.holdReports tag body) s =
    s.command 0x05#8 tag body fun _ s => (s.onReport fun r => { r with reportsHeld := true }, .done .empty) := rfl
theorem exec_releaseReports (tag : Byte) (body : Body Unit) (s : State) : exec (.releaseReports tag body) s =
    s.command 0x06#8 tag body fun _ s => (s.onReport fun r => { r with reportsHeld := false }, .done .empty) := rfl
theorem exec_flushReports (tag : Byte) (body : Body Unit) (s : State) :
    exec (.flushReports tag body) s = s.command 0x07#8 tag body fun _ s => s.runFlushReports := rfl
theorem exec_setReportHold (tag : Byte) (body : Body Half) (s : State) :
    exec (.setReportHold tag body) s = s.command 0x04#8 tag body fun ms s => s.runSetReportHold ms := rfl
theorem exec_setNotices (tag : Byte) (body : Body (List EnablePair)) (s : State) :
    exec (.setNotices tag body) s = s.command 0x03#8 tag body fun ps s => s.runSetNotices ps := rfl

/-- R186: with records filled, every one of them is due. -/
theorem sendAll_of_length {r : ReportUnit} {n : Nat} (h : r.filled.length = n + 1) :
    r.sendAll = { r with sendPoint := some n, holdTimer := none } := by
  rw [ReportUnit.sendAll, h]
theorem sendAll_of_empty {r : ReportUnit} (h : r.filled = []) : r.sendAll = r := by
  rw [ReportUnit.sendAll, h]
  rfl
/-- R188: FLUSH REPORTS answers how many records are then due. -/
theorem runFlushReports_of_length {s : State} {n : Nat} (h : s.report.filled.length = n + 1) : s.runFlushReports =
    (s.onReport fun r => { r with sendPoint := some n, holdTimer := none }, .done (.due (n + 1))) := by
  simp only [State.runFlushReports, State.onReport, sendAll_of_length h, ReportUnit.due]
theorem runFlushReports_of_empty {s : State} (h : s.report.filled = []) (point : s.report.sendPoint = none) :
    s.runFlushReports = (s, .done (.due 0)) := by
  simp only [State.runFlushReports, State.onReport, sendAll_of_empty h, ReportUnit.due, point]
/-- R186: a running hold timer that expires makes everything due; a stopped one changes nothing. -/
theorem exec_holdTimerExpiry {s : State} {t : Nat} (h : s.report.holdTimer = some t) :
    exec .holdTimerExpiry s = (s.onReport ReportUnit.sendAll).done := by
  simp only [exec, execHoldTimerExpiry, h]
theorem exec_holdTimerExpiry_stopped {s : State} (h : s.report.holdTimer = none) : exec .holdTimerExpiry s = s.done := by
  simp only [exec, execHoldTimerExpiry, h]

/-! SET NOTICES. -/

theorem deviceCondition_iff (c : NoticeCondition) : deviceCondition c = true ↔
    c = .claimListFull ∨ c = .reportSpaceLow ∨ c = .tableFull ∨ c = .accessionExhausted := by
  cases c <;> decide
/-- R189: STARTED has no enables, and a lane's conditions have theirs in its configuration. -/
theorem deviceCondition_of_other {c : NoticeCondition} (h : c = .started ∨ laneCondition c = true) : deviceCondition c = false := by
  revert h
  cases c <;> decide
theorem runSetNotices_of_device {ps : List EnablePair} (h : ∀ p ∈ ps, deviceCondition p.condition = true) (s : State) :
    s.runSetNotices ps =
      (s.onReport fun r => { r with enables := deviceEnablesOf ps }, .done (.deviceEnables (deviceEnablesOf ps))) :=
  if_pos (List.all_eq_true.mpr h)
theorem runSetNotices_of_other {ps : List EnablePair} {p : EnablePair} (mem : p ∈ ps) (h : deviceCondition p.condition = false)
    (s : State) : s.runSetNotices ps = (s, .refused .invalid .none) := by
  refine if_neg fun all => ?_
  simp [List.all_eq_true.mp all p mem] at h
/-- R189, R193: a level condition takes its edges from bits 0 and 1 of its set. -/
theorem on_deviceEnablesOf_level (ps : List EnablePair) {c : NoticeCondition}
    (h : c = .claimListFull ∨ c = .reportSpaceLow ∨ c = .tableFull) :
    (deviceEnablesOf ps).on c .rising = (enableSet ps c).getLsbD 0 ∧ (deviceEnablesOf ps).on c .falling = (enableSet ps c).getLsbD 1 := by
  obtain rfl | rfl | rfl := h <;> exact ⟨rfl, rfl⟩
/-- R189, R193: a condition that no pair names has its enables off. -/
theorem on_deviceEnablesOf_absent {ps : List EnablePair} {c : NoticeCondition} (h : enableSet ps c = 0x00#8) (started : c ≠ .started)
    (edge : Edge) : (deviceEnablesOf ps).on c edge = false := by
  have level : LevelEnable.on (levelEnable 0x00#8) edge = false := by cases edge <;> rfl
  cases c with
  | claimListFull | reportSpaceLow | tableFull => exact (congrArg (fun b => LevelEnable.on (levelEnable b) edge) h).trans level
  | accessionExhausted => exact congrArg eventEnable h
  | started => exact absurd rfl started
  | silent | stopped | diverterFault | held | testSync | levelChange | checkFail | slipSeen | phantom => rfl

/-- Settles O8: the commands that hold, release and flush, the hold time and its timer, then SET NOTICES taken and refused. -/
theorem reportCommandsSetTheReportUnit : Obligations.ReportCommandsSetTheReportUnit := by
  refine ⟨fun tag s hs => takes_of_block (exec_holdReports tag _ s) hs rfl, fun tag s hs => takes_of_block (exec_releaseReports tag _ s) hs rfl,
    fun tag s n hs filled => takes_of_block (exec_flushReports tag _ s) hs (runFlushReports_of_length filled),
    fun tag s hs filled point => takes_of_block (exec_flushReports tag _ s) hs (runFlushReports_of_empty filled point),
    fun tag ms s hs => ?holdTime, fun s n t timer filled => ?expiry, fun s timer => exec_holdTimerExpiry_stopped timer,
    fun tag ps s hs wf device => ?notices, fun tag ps p s hs mem other => ?refused⟩
  case holdTime =>
    have clamped : clamp 0 1000 ms.toNat = min ms.toNat 1000 := Nat.zero_max _
    exact clamped ▸ takes_of_block (exec_setReportHold tag _ s) hs rfl
  case expiry =>
    refine happens_of_done ((exec_holdTimerExpiry timer).trans ?_)
    rw [State.onReport, sendAll_of_length filled]
  case notices =>
    have named (p : EnablePair) (mem : p ∈ ps) := (deviceCondition_iff p.condition).mpr (device p mem)
    refine ⟨deviceEnablesOf ps, takes_of_block (exec_setNotices tag _ s) hs (runSetNotices_of_device named _), fun p mem level => ?_,
      fun p mem event => ?_, fun c edge started absent => on_deviceEnablesOf_absent (enableSet_of_absent absent) started edge⟩
    · rw [← enableSet_of_mem wf mem]
      exact on_deviceEnablesOf_level ps (by simpa [level] using device p mem)
    · rw [← enableSet_of_mem wf mem, event]
      rfl
  case refused =>
    exact takes_of_block (exec_setNotices tag _ s) hs (runSetNotices_of_other mem (deviceCondition_of_other other) _)

end Sys2Proof.Machine
end

section
/-! The host's commands read back from their frames (R193): the readers of their fields, their bodies, and their codes. -/

namespace Sys2Proof.Machine

/-! Readers of fields. -/

/-- The reader takes the bytes, and gives the value, whatever follows them. -/
def Reads {α : Type} (p : Reader α) (bytes : List Byte) (a : α) : Prop := ∀ r, p (bytes ++ r) = some (a, r)

theorem ReadsBack.reads {α : Type} {p : Reader α} {f : α → List Byte} {ok : α → Prop} (h : ReadsBack p f ok) {a : α} (good : ok a) :
    Reads p (f a) a := h.back good
theorem reads_read8 (b : Byte) : Reads read8 [b] b := fun _ => rfl
theorem reads_read16 (x : Half) : Reads read16 (be16 x) x := read16_readsBack.reads trivial
theorem reads_read32 (x : Quad) : Reads read32 (be32 x) x := fun r => by
  have value : x.extractLsb' 24 8 ++ x.extractLsb' 16 8 ++ x.extractLsb' 8 8 ++ x.extractLsb' 0 8 = x := by
    ext i hi
    simp
    grind
  exact congrArg (fun y => some (y, r)) value
theorem reads_readBytes {n : Nat} {bs : List Byte} (length : bs.length = n) : Reads (readBytes n) bs bs := fun r => by
  subst length
  simp [readBytes]
theorem reads_readCode {α : Type} {all : List α} {code : α → Byte} (found : ∀ a, ofCode all code (code a) = some a) (a : α) :
    Reads (readCode all code) [code a] a := (readCode_readsBack found).reads trivial
theorem reads_readMany {α : Type} {p : Reader α} {f : α → List Byte} (as : List α) (h : ∀ a ∈ as, Reads p (f a) a) :
    Reads (readMany p as.length) (as.flatMap f) as := fun r => by
  induction as with
  | nil => rfl
  | cons a as ih =>
    have first := h a List.mem_cons_self
    have rest := ih fun b mem => h b (List.mem_cons_of_mem _ mem)
    simp [readMany, first _, rest]
theorem reads_readOpt {α : Type} {p : Reader α} {f : α → List Byte} {o : Option α} (h : ∀ a ∈ o, Reads p (f a) a) :
    Reads (readOpt p) (optBytes f o) o := fun r => by
  cases o with
  | none => rfl
  | some a => simp [readOpt, optBytes, read8, h a rfl r]
/-- R193: a field "with presence" is passed over in its width when it is absent. -/
theorem reads_readKept {α : Type} {p : Reader α} {f : α → List Byte} {absent : List Byte} {x : α} (skipped : Reads p absent x)
    (h : ∀ a, Reads p (f a) a) (o : Option α) : Reads (readKept p) (keptBytes absent f o) o := fun r => by
  cases o with
  | none => simp [readKept, keptBytes, read8, skipped r]
  | some a => simp [readKept, keptBytes, read8, h a r]
theorem reads_readFlag (b : Bool) : Reads readFlag (flagByte b) b := fun r => by
  cases b <;> rfl
theorem reads_readKey {k : KeyText} (h : k.wf = true) : Reads readKey k.bytes k := readKey_readsBack.reads (of_decide_eq_true h)

theorem reads_class (c : ItemClass) : Reads (readCode ItemClass.all ItemClass.code) [c.code] c :=
  reads_readCode (fun c => by cases c <;> rfl) c
theorem reads_kind (k : Kind) : Reads (readCode Kind.all Kind.code) [k.code] k := reads_readCode (fun k => by cases k <;> rfl) k
theorem reads_slip (d : SlipDetection) : Reads (readCode SlipDetection.all SlipDetection.code) [d.code] d :=
  reads_readCode (fun d => by cases d <;> rfl) d
theorem reads_mode (m : LaneMode) : Reads (readCode LaneMode.all LaneMode.code) [m.code] m := reads_readCode (fun m => by cases m <;> rfl) m
theorem reads_condition (c : NoticeCondition) : Reads (readCode NoticeCondition.all NoticeCondition.code) [c.code] c :=
  reads_readCode (fun c => by cases c <;> rfl) c
theorem reads_findField (f : FindField) : Reads (readCode FindField.all FindField.code) [f.code] f :=
  reads_readCode (fun f => by cases f <;> rfl) f
theorem reads_findCompare (c : FindCompare) : Reads (readCode FindCompare.all FindCompare.code) [c.code] c :=
  reads_readCode (fun c => by cases c <;> rfl) c
/-- R193: the class codes of a plan, after whatever gives their number. -/
theorem reads_classes {n : Nat} {cs : List ItemClass} (length : cs.length = n) :
    Reads (readMany (readCode ItemClass.all ItemClass.code) n) (cs.map ItemClass.code) cs := by
  subst length
  have codes := reads_readMany cs fun c _ => reads_class c
  rwa [← List.map_eq_flatMap] at codes

/-! The bodies. -/

/-- What reads on behind a field goes on with the field's value, at the bytes after it. -/
theorem reads_bind {α β : Type} {p : Reader α} {bytes : List Byte} {a : α} (h : Reads p bytes a) (r : List Byte)
    (k : α × List Byte → Option β) : (p (bytes ++ r) >>= k) = k (a, r) := by
  rw [h r]
  rfl
theorem reads_enablePair (p : EnablePair) : Reads readEnablePair p.bytes p := fun r => by
  have bytes : p.bytes = [p.condition.code] ++ [p.set] := rfl
  simp only [readEnablePair, bytes, List.append_assoc, reads_bind (reads_condition _), reads_bind (reads_read8 _), pure]
/-- R193: there are 14 conditions, so the pairs of a well formed list fit its count byte. -/
theorem enablePairs_length {ps : List EnablePair} (wf : enablePairsWf ps = true) : ps.length ≤ 14 := by
  have once : (ps.map (·.condition)).Nodup := of_decide_eq_true wf
  have named := (once.subperm fun c _ => show c ∈ NoticeCondition.all by cases c <;> decide).length_le
  rwa [List.length_map] at named
/-- R193: a count byte is the number of what it counts. -/
theorem reads_num8 {n : Nat} (h : n < 256) : Reads read8 (num8 n) (BitVec.ofNat 8 n) ∧ (BitVec.ofNat 8 n).toNat = n :=
  ⟨reads_read8 _, by rw [BitVec.toNat_ofNat, Nat.mod_eq_of_lt h]⟩
theorem reads_enables {ps : List EnablePair} (wf : enablePairsWf ps = true) : Reads readEnables (enablesBytes ps) ps := fun r => by
  obtain ⟨count, value⟩ := reads_num8 (n := ps.length) (by have := enablePairs_length wf; omega)
  have pairs := reads_readMany ps fun p _ => reads_enablePair p
  simp only [readEnables, enablesBytes, List.append_assoc, reads_bind count, value, reads_bind pairs, wf, if_true, pure]
theorem reads_serialGiven (g : SerialGiven) : Reads readSerialGiven g.bytes g := fun r => by
  have gapLag := reads_readKept (reads_read8 0x00#8) reads_read8 g.gapLag
  have dayLag : Reads (readKept read16) (keptBytes [0x00#8, 0x00#8] be16 g.dayLag) g.dayLag :=
    reads_readKept (reads_read16 0x0000#16) reads_read16 g.dayLag
  simp only [readSerialGiven, SerialGiven.bytes, List.append_assoc, reads_bind (reads_read16 _), reads_bind (reads_read32 _),
    reads_bind gapLag, reads_bind dayLag, pure]
theorem reads_plan {cs : List ItemClass} (length : 1 ≤ cs.length ∧ cs.length ≤ 4) : Reads readPlan (planBytes cs) cs := fun r => by
  obtain ⟨count, value⟩ := reads_num8 (n := cs.length) (by omega)
  simp only [readPlan, planBytes, List.append_assoc, reads_bind count, value, length, and_self, if_true]
  exact reads_classes rfl r
theorem reads_dueChange (d : DueChange) : Reads readDueChange d.bytes d := fun r => by
  cases d with
  | keep | remove => rfl
  | set day => simp [readDueChange, DueChange.bytes, read8, reads_read16 day r]
theorem reads_amend {f : AmendFields} (wf : AmendFields.wf f = true) : Reads readAmend f.bytes f := fun r => by
  obtain ⟨keyWf, planWf⟩ : f.key.wf = true ∧ ∀ cs ∈ f.plan, 1 ≤ cs.length ∧ cs.length ≤ 4 := by
    unfold AmendFields.wf at wf
    cases plan : f.plan <;> simp_all
  have q := reads_readOpt (o := f.q) fun b _ => reads_read8 b
  have plan := reads_readOpt fun cs mem => reads_plan (planWf cs mem)
  have publisher := reads_readOpt (o := f.publisher) fun x _ => reads_read32 x
  have gapLag := reads_readOpt (o := f.gapLag) fun b _ => reads_read8 b
  have dayLag := reads_readOpt (o := f.dayLag) fun x _ => reads_read16 x
  simp only [readAmend, AmendFields.bytes, List.append_assoc, reads_bind (reads_readKey keyWf), reads_bind q, reads_bind plan,
    reads_bind (reads_dueChange _), reads_bind publisher, reads_bind gapLag, reads_bind dayLag, pure]
theorem reads_configure {f : ConfigureFields} (wf : ConfigureFields.wf f = true) : Reads readConfigure f.bytes f := fun r => by
  obtain ⟨ten, enablesWf⟩ : (∀ o ∈ f.outlets, o.length = 10) ∧ ∀ e ∈ f.enables, enablePairsWf e = true := by
    unfold ConfigureFields.wf at wf
    cases outlets : f.outlets <;> cases enables : f.enables <;> simp_all
  have depth := reads_readOpt (o := f.depth) fun b _ => reads_read8 b
  have outlets := reads_readOpt (f := id) fun o mem => reads_readBytes (ten o mem)
  have slip := reads_readOpt (o := f.slip) fun d _ => reads_slip d
  have silence := reads_readOpt (o := f.silence) fun b _ => reads_read8 b
  have confirm := reads_readOpt (o := f.confirm) fun x _ => reads_read16 x
  have enables := reads_readOpt fun e mem => reads_enables (enablesWf e mem)
  simp only [readConfigure, ConfigureFields.bytes, List.append_assoc, reads_bind (reads_read8 _), reads_bind depth, reads_bind outlets,
    reads_bind slip, reads_bind silence, reads_bind confirm, reads_bind enables, pure]
theorem reads_setRun {f : SetRunFields} (wf : f.key.wf = true) : Reads readSetRun f.bytes f := fun r => by
  simp only [readSetRun, SetRunFields.bytes, List.append_assoc, reads_bind (reads_readKey wf), reads_bind (reads_read32 _), pure]
theorem reads_list (f : ListFields) : Reads readList f.bytes f := fun r => by
  simp only [readList, ListFields.bytes, List.append_assoc, reads_bind (reads_read16 _), pure]
theorem reads_laneMode (f : LaneModeFields) : Reads readLaneMode f.bytes f := fun r => by
  have bytes : f.bytes = [f.lane] ++ [f.mode.code] := rfl
  simp only [readLaneMode, bytes, List.append_assoc, reads_bind (reads_read8 _), reads_bind (reads_mode _), pure]
theorem reads_steering {f : SteeringFields} (wf : f.desks.length = f.count.toNat) : Reads readSteering f.bytes f := fun r => by
  simp only [readSteering, SteeringFields.bytes, List.append_assoc, reads_bind (reads_read8 _), reads_bind (reads_read16 _),
    reads_bind (reads_readBytes wf), pure]
theorem reads_find (f : FindFields) : Reads readFind f.bytes f := fun r => by
  have bytes : f.bytes = [f.field.code] ++ ([f.compare.code] ++ (be32 f.value ++ (be16 f.start ++ flagByte f.withdrawn))) := by
    simp [FindFields.bytes]
  simp only [readFind, bytes, List.append_assoc, reads_bind (reads_findField _), reads_bind (reads_findCompare _),
    reads_bind (reads_read32 _), reads_bind (reads_read16 _), reads_bind (reads_readFlag _), pure]

/-! The commands. -/

/-- R183: a body read with nothing left over. -/
theorem readBody_of_some {α : Type} {p : Reader α} {body : List Byte} {a : α} (h : p body = some (a, [])) : readBody p body = .fields a := by
  rw [readBody, h]
theorem readBody_of_reads {α : Type} {p : Reader α} {bytes : List Byte} {a : α} (h : Reads p bytes a) : readBody p bytes = .fields a :=
  readBody_of_some (by simpa using h [])
/-- R193: the serial fields of ANNOUNCE TITLE stand at the end of its body, or the body ends before them. -/
theorem readBody_announce {f : AnnounceFields} (wf : AnnounceFields.wf f = true) : readBody readAnnounce f.bytes = .fields f := by
  obtain ⟨keyWf, length⟩ : f.key.wf = true ∧ f.plan.length = f.q.toNat := by simpa [AnnounceFields.wf] using wf
  have due : Reads (readKept read16) (keptBytes [0x00#8, 0x00#8] be16 f.due) f.due :=
    reads_readKept (reads_read16 0x0000#16) reads_read16 f.due
  refine readBody_of_some ?_
  simp only [readAnnounce, AnnounceFields.bytes, List.append_assoc, reads_bind (reads_readKey keyWf), reads_bind (reads_kind _),
    reads_bind (reads_read32 _), reads_bind (reads_read8 _), reads_bind (reads_classes length), reads_bind due]
  obtain ⟨key, kind, publisher, q, plan, day, serial⟩ := f
  cases serial with
  | none => rfl
  | some g =>
    have given : g.bytes ≠ [] := by simp [SerialGiven.bytes, be16]
    have whole : readSerialGiven g.bytes = some (g, []) := by simpa using reads_serialGiven g []
    simp only [if_neg given, whole]
    rfl
/-- R182: a code outside the table spells no command. -/
theorem decodeCommand_unknown {code : Byte} (unknown : code.toNat ∉ commandCodes) (tag : Byte) (body : List Byte) :
    decodeCommand code tag body = .unknownCommand code tag := by
  unfold decodeCommand
  split
  case h_38 => rfl
  all_goals
    next number =>
      rw [number] at unknown
      exact absurd (by decide) unknown

/-- Settles O5: the unknown codes, then the commands by what their bodies carry. -/
theorem commandsReadBackFromTheirFrames : Obligations.CommandsReadBackFromTheirFrames := by
  intro i code tag body wf h
  cases i with
  | unknownCommand c t =>
    cases h
    exact decodeCommand_unknown (by simpa [Instr.wf] using wf) _ _
  | identify t b | readCounters t b | holdReports t b | releaseReports t b | flushReports t b | restart t b | clear t b | readAccession t b
  | readClaimStatus t b | sweep t b | purge t b | abort t b | engineStatus t b | enableLane t b | disableLane t b | readLane t b
  | clearDiverterFault t b | injectError t b | readTest t b | closeConsignment t b | readConsignment t b =>
    cases b <;> cases h
    rfl
  | setReportHold t b | setDay t b | takeClaims t b | setGrace t b =>
    cases b <;> cases h
    simp [decodeCommand, readBody_of_reads (reads_read16 _)]
  | setAccessionBase t b =>
    cases b <;> cases h
    exact congrArg (Instr.setAccessionBase _) (readBody_of_reads (reads_read32 _))
  | withdrawTitle t b | readTitle t b =>
    cases b <;> cases h
    simp [decodeCommand, readBody_of_reads (reads_readKey wf)]
  | setNotices t b =>
    cases b <;> cases h
    exact congrArg (Instr.setNotices _) (readBody_of_reads (reads_enables wf))
  | announceTitle t b =>
    cases b <;> cases h
    exact congrArg (Instr.announceTitle _) (readBody_announce wf)
  | amendTitle t b =>
    cases b <;> cases h
    exact congrArg (Instr.amendTitle _) (readBody_of_reads (reads_amend wf))
  | setRun t b =>
    cases b <;> cases h
    exact congrArg (Instr.setRun _) (readBody_of_reads (reads_setRun wf))
  | configureLane t b =>
    cases b <;> cases h
    exact congrArg (Instr.configureLane _) (readBody_of_reads (reads_configure wf))
  | setSteering t b =>
    cases b <;> cases h
    exact congrArg (Instr.setSteering _) (readBody_of_reads (reads_steering (of_decide_eq_true wf)))
  | listTitles t b =>
    cases b <;> cases h
    exact congrArg (Instr.listTitles _) (readBody_of_reads (reads_list _))
  | setLaneMode t b =>
    cases b <;> cases h
    exact congrArg (Instr.setLaneMode _) (readBody_of_reads (reads_laneMode _))
  | find t b =>
    cases b <;> cases h
    exact congrArg (Instr.find _) (readBody_of_reads (reads_find _))
  | powerOn | hostLengthError | hostCrcError | commandDropped | replySent | batchSent | holdTimerExpiry | noReportSpaceNews
  | linkCheckFailure | recordNotWellFormed | heartbeat | itemBegin | observation | itemEnd | atGate | confirm | silenceTimerExpiry
  | confirmTimerExpiry | findExamination | sweepExamination | purgeExamination | laneRecordSent => cases h

end Sys2Proof.Machine
end
